-- ==== Sys2Proof/Word.lean ====
section
/-! DEFINITION. The word types of LEP and nothing else: every helper that computes lives in Machine/, where a
repair can mend it. Bit 0 is the least significant bit everywhere (R7). -/

namespace Sys2Proof

/-- A 32-bit bus word; every register is 32 bits wide on the bus (R7, R50). -/
abbrev Word := BitVec 32

/-- One byte of a buffer or of a frame. -/
abbrev Byte := BitVec 8

/-- A 12-bit byte offset inside one instance's 4096-byte address space (R60). -/
abbrev Addr := BitVec 12

/-- The bit pattern of an IEEE 754 binary32 value (R170). -/
abbrev F32 := BitVec 32

/-- One host request as the signals `req_we`, `req_addr`, `req_wdata` of R61: the fields of format T (R91). -/
structure Request where
  /-- `req_we`: true is a write, false a read. -/
  we : Bool
  /-- `req_addr`: the byte offset. -/
  addr : Addr
  /-- `req_wdata`: ignored by the block for a read. -/
  wdata : Word
  deriving DecidableEq, Repr

end Sys2Proof
end

