-- ==== Sys2Proof/Syntax.lean ====
section
/-! DEFINITION. The instructions of LEP: one constructor per row of spec/opcode_table.json, in the table's order
(R94). An instruction is one host transaction (R90). A read has no data operand: its `wdata` is ignored (R91). -/

namespace Sys2Proof

/-- The 34 rows of the opcode table. -/
inductive Instr where
  /-- CREATE: write 1 to CMD (R110). -/
  | create
  /-- CONFIGURE: write 2 to CMD (R113). -/
  | configure
  /-- ENCODE: write 3 to CMD (R140). -/
  | encode
  /-- DESTROY: write 4 to CMD (R120). -/
  | destroy
  /-- CMD.ILLEGAL: write any other word to CMD (R126). -/
  | cmdIllegal (word : Word)
  /-- RD.STATUS (R124). -/
  | rdStatus
  /-- GETERR, that is RD.LAST_ERROR (R123). -/
  | getErr
  /-- WR.CFG_MTU (R67). -/
  | wrCfgMtu (value : Word)
  /-- RD.CFG_MTU (R66). -/
  | rdCfgMtu
  /-- WR.CFG_QUALITY (R67). -/
  | wrCfgQuality (value : Word)
  /-- RD.CFG_QUALITY (R66). -/
  | rdCfgQuality
  /-- WR.CFG_CHMODE (R67). -/
  | wrCfgChmode (value : Word)
  /-- RD.CFG_CHMODE (R66). -/
  | rdCfgChmode
  /-- WR.CFG_FORMAT (R67). -/
  | wrCfgFormat (value : Word)
  /-- RD.CFG_FORMAT (R66). -/
  | rdCfgFormat
  /-- WR.CFG_SFREQ (R67). -/
  | wrCfgSfreq (value : Word)
  /-- RD.CFG_SFREQ (R66). -/
  | rdCfgSfreq
  /-- WR.PCM_LEN (R67). -/
  | wrPcmLen (value : Word)
  /-- RD.PCM_LEN (R66). -/
  | rdPcmLen
  /-- WR.OUT_CAPACITY (R67). -/
  | wrOutCapacity (value : Word)
  /-- RD.OUT_CAPACITY (R66). -/
  | rdOutCapacity
  /-- GETBR, that is RD.BITRATE (R163). -/
  | getBr
  /-- GETSF, that is RD.SFREQ (R122). -/
  | getSf
  /-- RD.BLOCK_COUNT_LO (R66, R35). -/
  | rdBlockCountLo
  /-- RD.BLOCK_COUNT_HI (R66, R35). -/
  | rdBlockCountHi
  /-- RD.CONSUMED (R66, R30). -/
  | rdConsumed
  /-- RD.FRAME_LEN (R66, R31). -/
  | rdFrameLen
  /-- RD.FRAME_COUNT (R66, R32). -/
  | rdFrameCount
  /-- LDPCM, that is WR.PCM_BUF: write the word at 0x200 + 4*w (R67, R36). -/
  | ldpcm (w : BitVec 7) (value : Word)
  /-- RD.PCM_BUF: read the word at 0x200 + 4*w (R66, R36). -/
  | rdPcmBuf (w : BitVec 7)
  /-- RDFRM: read the word at 0x400 + 4*w, w in 0..63 (R66, R37). -/
  | rdfrm (w : BitVec 6)
  /-- RDFRM.H1: read the word at 0x500 + 4*w_low (R66, R94: w = 64 + w_low). -/
  | rdfrmH1 (wLow : BitVec 4)
  /-- RDFRM.H2: read the word at 0x540 + 4*w_low (R66, R94: w = 80 + w_low). -/
  | rdfrmH2 (wLow : BitVec 2)
  /-- BUS.ERR: every transaction that no other row takes (R68). -/
  | busErr (we : Bool) (addr : Addr) (wdata : Word)
  deriving DecidableEq, Repr

end Sys2Proof
end

