-- ==== Sys2Proof/Decode.lean ====
section
/-! DEFINITION. Format T and format C (R91, R92), the decoder of R93 and R94, the encoder of the same tables, and the
host's `decodeTableWord`. The decoder is total on the 45-bit transactions: BUS.ERR takes what no other row takes. On
byte strings it is total too and rejects by name what is no format T word (log 12). -/

namespace Sys2Proof

/-! ## Format T as one 45-bit number (R91) -/

/-- The request as the number of R91: bit 44 `we`, bits 43..32 `addr`, bits 31..0 `wdata`. -/
def packRequest (r : Request) : BitVec 45 :=
  BitVec.ofBool r.we ++ (r.addr ++ r.wdata)

/-- The signals of a 45-bit transaction (R91). -/
def unpackRequest (t : BitVec 45) : Request where
  we := t.getLsbD 44
  addr := t.extractLsb' 32 12
  wdata := t.extractLsb' 0 32

/-! ## The decoder -/

/-- A write to CMD (R93's opcode test; R92: the comparison is on all 32 bits). -/
def decodeCommand (v : Word) : Instr :=
  if v = 0x00000001#32 then .create
  else if v = 0x00000002#32 then .configure
  else if v = 0x00000003#32 then .encode
  else if v = 0x00000004#32 then .destroy
  else .cmdIllegal v

/-- An aligned write: the rows of R94 with `we` = 1. -/
def decodeWrite (addr : Addr) (v : Word) : Instr :=
  if addr = 0x000#12 then decodeCommand v
  else if addr = 0x00C#12 then .wrCfgMtu v
  else if addr = 0x010#12 then .wrCfgQuality v
  else if addr = 0x014#12 then .wrCfgChmode v
  else if addr = 0x018#12 then .wrCfgFormat v
  else if addr = 0x01C#12 then .wrCfgSfreq v
  else if addr = 0x020#12 then .wrPcmLen v
  else if addr = 0x024#12 then .wrOutCapacity v
  else if addr.extractLsb' 9 3 = 0b001#3 then .ldpcm (addr.extractLsb' 2 7) v
  else .busErr true addr v

/-- An aligned read: the rows of R94 with `we` = 0. `wdata` is ignored (R91, log 13) but for BUS.ERR's record of it. -/
def decodeRead (addr : Addr) (v : Word) : Instr :=
  if addr = 0x004#12 then .rdStatus
  else if addr = 0x008#12 then .getErr
  else if addr = 0x00C#12 then .rdCfgMtu
  else if addr = 0x010#12 then .rdCfgQuality
  else if addr = 0x014#12 then .rdCfgChmode
  else if addr = 0x018#12 then .rdCfgFormat
  else if addr = 0x01C#12 then .rdCfgSfreq
  else if addr = 0x020#12 then .rdPcmLen
  else if addr = 0x024#12 then .rdOutCapacity
  else if addr = 0x028#12 then .getBr
  else if addr = 0x02C#12 then .getSf
  else if addr = 0x030#12 then .rdBlockCountLo
  else if addr = 0x034#12 then .rdBlockCountHi
  else if addr = 0x038#12 then .rdConsumed
  else if addr = 0x03C#12 then .rdFrameLen
  else if addr = 0x040#12 then .rdFrameCount
  else if addr.extractLsb' 9 3 = 0b001#3 then .rdPcmBuf (addr.extractLsb' 2 7)
  else if addr.extractLsb' 8 4 = 0x4#4 then .rdfrm (addr.extractLsb' 2 6)
  else if addr.extractLsb' 6 6 = 0b010100#6 then .rdfrmH1 (addr.extractLsb' 2 4)
  else if addr.extractLsb' 4 8 = 0x54#8 then .rdfrmH2 (addr.extractLsb' 2 2)
  else .busErr false addr v

/-- Decode a request, in R91's order: first `addr[1:0]`, then `addr` and `we`, and `wdata` for a write to CMD only. -/
def decodeRequest (r : Request) : Instr :=
  if r.addr.extractLsb' 0 2 ≠ 0#2 then .busErr r.we r.addr r.wdata
  else if r.we then decodeWrite r.addr r.wdata
  else decodeRead r.addr r.wdata

/-- Decode a 45-bit transaction (R94: the rows decode every one of the 2^45 transactions). -/
def decode (t : BitVec 45) : Instr :=
  decodeRequest (unpackRequest t)

/-- Why a byte string is no transaction. -/
inductive DecodeError where
  /-- It is not the six bytes that hold 45 bits. -/
  | notSixBytes
  /-- Bits 47..45 of the six bytes are not zero; format T has 45 bits (R91). -/
  | aboveFormatT
  deriving DecidableEq, Repr

/-- The number whose little-endian bytes these are. -/
def numberOfBytes : List Byte → Nat
  | [] => 0
  | b :: rest => b.toNat + 256 * numberOfBytes rest

/-- Decode six bytes, the first holding bits 7..0 (log 12). -/
def decodeBytes (bytes : List Byte) : Except DecodeError Instr :=
  if bytes.length ≠ 6 then .error .notSixBytes
  else if 2 ^ 45 ≤ numberOfBytes bytes then .error .aboveFormatT
  else .ok (decode (BitVec.ofNat 45 (numberOfBytes bytes)))

/-- The `k` low bytes of a number, least significant first. -/
def bytesOfNumber : Nat → Nat → List Byte
  | 0, _ => []
  | k + 1, n => BitVec.ofNat 8 n :: bytesOfNumber k (n / 256)

/-- The instruction the decoder reads from an instruction whose bits are `w`, numbered as spec/opcode_table.json
numbers them; bits at and above `nbits` are 0. None where the decoder rejects. -/
def decodeTableWord (nbits w : Nat) : Option Instr :=
  match decodeBytes (bytesOfNumber 6 (w % 2 ^ nbits)) with
  | .ok i => some i
  | .error _ => none

/-! ## The encoder -/

/-- A write of `v` at `addr`. -/
def writeRequest (addr : Addr) (v : Word) : Request := ⟨true, addr, v⟩

/-- A read at `addr`; the assembler emits 0 for `wdata` (R91). -/
def readRequest (addr : Addr) : Request := ⟨false, addr, 0#32⟩

/-- The request of an instruction, from R94's table. -/
def encodeRequest : Instr → Request
  | .create => writeRequest 0x000#12 0x00000001#32
  | .configure => writeRequest 0x000#12 0x00000002#32
  | .encode => writeRequest 0x000#12 0x00000003#32
  | .destroy => writeRequest 0x000#12 0x00000004#32
  | .cmdIllegal word => writeRequest 0x000#12 word
  | .rdStatus => readRequest 0x004#12
  | .getErr => readRequest 0x008#12
  | .wrCfgMtu value => writeRequest 0x00C#12 value
  | .rdCfgMtu => readRequest 0x00C#12
  | .wrCfgQuality value => writeRequest 0x010#12 value
  | .rdCfgQuality => readRequest 0x010#12
  | .wrCfgChmode value => writeRequest 0x014#12 value
  | .rdCfgChmode => readRequest 0x014#12
  | .wrCfgFormat value => writeRequest 0x018#12 value
  | .rdCfgFormat => readRequest 0x018#12
  | .wrCfgSfreq value => writeRequest 0x01C#12 value
  | .rdCfgSfreq => readRequest 0x01C#12
  | .wrPcmLen value => writeRequest 0x020#12 value
  | .rdPcmLen => readRequest 0x020#12
  | .wrOutCapacity value => writeRequest 0x024#12 value
  | .rdOutCapacity => readRequest 0x024#12
  | .getBr => readRequest 0x028#12
  | .getSf => readRequest 0x02C#12
  | .rdBlockCountLo => readRequest 0x030#12
  | .rdBlockCountHi => readRequest 0x034#12
  | .rdConsumed => readRequest 0x038#12
  | .rdFrameLen => readRequest 0x03C#12
  | .rdFrameCount => readRequest 0x040#12
  | .ldpcm w value => writeRequest (0b001#3 ++ w ++ 0b00#2) value
  | .rdPcmBuf w => readRequest (0b001#3 ++ w ++ 0b00#2)
  | .rdfrm w => readRequest (0x4#4 ++ w ++ 0b00#2)
  | .rdfrmH1 wLow => readRequest (0b010100#6 ++ wLow ++ 0b00#2)
  | .rdfrmH2 wLow => readRequest (0x54#8 ++ wLow ++ 0b00#2)
  | .busErr we addr wdata => ⟨we, addr, wdata⟩

/-- The 45-bit transaction of an instruction (R91). -/
def encode (i : Instr) : BitVec 45 :=
  packRequest (encodeRequest i)

end Sys2Proof
end

