-- ==== Sys2Proof/Config.lean ====
section
/-! DEFINITION. What is fixed for a machine and is no state: the record of the decided values that the spec asks a
model to hold as configuration (R6, R181; 92_eei_decisions.md), and the FREE VALUES, opaque constants without a
body, for what the spec leaves open. The record's LEP-1.0 values are `Sys2Proof.Machine.lep10`. -/

namespace Sys2Proof

/-- The decided values of R6 that are not the shape of the model (log 14). A claim about the pipeline can take one
of these as an argument; `exec` uses the LEP-1.0 values. -/
structure Config where
  /-- Quality enumerants (D6). -/
  qHigh : Word
  qStandard : Word
  qMobile : Word
  /-- Channel mode enumerants (D6). -/
  cmStereo : Word
  cmDual : Word
  cmMono : Word
  /-- Active channels of each channel mode (R143, D10). -/
  nchStereo : Nat
  nchDual : Nat
  nchMono : Nat
  /-- Sample format enumerants (D6). -/
  fmtS16 : Word
  fmtS24 : Word
  fmtS32 : Word
  fmtF32 : Word
  /-- The least output capacity ENCODE accepts for a payload of this many bytes: CAP_MIN of 90_conflicts.md C4 (D12). -/
  capMin : Nat → Nat
  /-- The conversion of one 16-bit sample (R147, D24). -/
  ofSample : BitVec 16 → F32
  /-- The analysis window WIN (R172, D25). -/
  win : Nat → F32
  /-- The basis BAS[k][n] (R173, D25). -/
  bas : Nat → Nat → F32
  /-- Transform of one channel's 256 analysis inputs (R176) with a given window and basis: input index to value,
  coefficient index to value. ENCODE gives it the two fields above. -/
  transform : (Nat → F32) → (Nat → Nat → F32) → (Nat → F32) → Nat → F32
  /-- The coefficient quantizer Q (R178, D26). -/
  quantize : F32 → Byte
  /-- The pad byte of R203 (D27). -/
  padByte : Byte

/-- FREE VALUE. The byte a buffer of the block of index `u` holds at bus offset `a` after its `r`-th hardware reset
until something writes it (R36, R37, R251: an arbitrary value per byte, stable until written; log 4). Blocks of
different index have unrelated values, since instances share nothing but the ROM (R235, log 22). -/
opaque Config.bufferAfterReset (u : Nat) (r : Nat) (a : Nat) : Byte

/-- FREE VALUE. payloadBytes of a quality that is none of the three (R160 defines it for those only; no reachable
state asks; log 9). Bounded so that 3 + P stays inside the 336 bytes of FRAME_BUF (R77). -/
opaque Config.payloadBytesUnstated (quality : Word) : Fin 334

/-- FREE VALUE. The 3-bit sfIdx of a frequency that is none of the four (R201 evaluates it on those only; log 10). -/
opaque Config.sfIdxUnstated (freq : Word) : BitVec 3

/-- FREE VALUE. The bitrate of a quality and a frequency whose product needs more than 32 bits (R162 computes on "at
least 32 bits"; no legal configuration reaches it; log 16). -/
opaque Config.bitrateUnstated (quality freq : Word) : Word

/-- FREE VALUE. Sign, and fraction minus 1, of the NaN that `fmul` or `fadd` of these operands gives: any of the NaN
patterns (R170 has NaNs and does not say which; unreachable from ENCODE by R177; log 11). -/
opaque Config.nanBits (a b : F32) : Bool × Fin 8388607

end Sys2Proof
end

