-- ==== Sys2Proof/Machine/State.lean ====
section
/-! DEFINITION. The state of one LEP instance as plain data: every item of R20, the port's last response, and the
model's own three fields (INVENTORY.md, State). -/

namespace Sys2Proof.Machine

/-- STATE (R21): the session's place in its lifecycle. The values 5 to 7 are never held (log 8). -/
inductive SessionState where
  /-- 0: after hardware reset; no session has been created. -/
  | void
  /-- 1: a session exists, unconfigured. -/
  | uninitialized
  /-- 2: configured, no block encoded yet. -/
  | ready
  /-- 3: configured, at least one block encoded since. -/
  | encoding
  /-- 4: the session was destroyed. -/
  | destroyed
  deriving DecidableEq, Repr

/-- The error codes of R24 and R222 (log 7). -/
inductive ErrorCode where
  /-- 0: the command succeeded. -/
  | none
  /-- 1: reserved, never written (R223). -/
  | nonFatal
  /-- 2: the session handle is invalid or destroyed. -/
  | fatal
  /-- 3: a caller contract violation. -/
  | illegalParameter
  /-- 4: reserved, never written (R223). -/
  | illegalVersion
  deriving DecidableEq, Repr

/-- One response on the port while `rsp_valid` is high (R61). -/
structure Response where
  /-- `rsp_rdata`: read data; 0 for a write and for an error response. -/
  rdata : Word
  /-- `rsp_err`: true is the error response (R68). -/
  err : Bool
  deriving DecidableEq, Repr

/-- What the host does next on the port (log 1). -/
inductive PortEvent where
  /-- A request that the port accepts. -/
  | request (r : Request)
  /-- `rst_n` is asserted and released (R250); `cut` is the request it cuts short, if one was in progress (R252). -/
  | reset (cut : Option Request)
  deriving DecidableEq, Repr

/-- The byte memories of the 4 KiB address space (R60, R62): pairs of a bus byte offset and the byte there, offsets
strictly rising. An unlisted offset has not been written since reset; what it reads as is `Machine.unwrittenByte`. -/
abbrev Memory := List Host.Cell

/-- One LEP instance (R20). -/
structure State where
  /-- STATE (R21). -/
  session : SessionState
  /-- LAST_ERROR (R24). -/
  lastError : ErrorCode
  /-- ACT_MTU (R26). -/
  actMtu : Word
  /-- ACT_QUALITY (R26). -/
  actQuality : Word
  /-- ACT_CHMODE (R26). -/
  actChmode : Word
  /-- ACT_FORMAT (R26). -/
  actFormat : Word
  /-- ACT_SFREQ (R26). -/
  actSfreq : Word
  /-- OVL[0][0..127] (R38), index 0 the oldest retained sample. -/
  ovl0 : Vector F32 128
  /-- OVL[1][0..127] (R38). -/
  ovl1 : Vector F32 128
  /-- BLOCK_COUNT (R35). -/
  blockCount : BitVec 64
  /-- CONSUMED (R30). -/
  consumed : Word
  /-- FRAME_LEN (R31). -/
  frameLen : Word
  /-- FRAME_COUNT (R32). -/
  frameCount : Word
  /-- CFG_MTU (R25). -/
  cfgMtu : Word
  /-- CFG_QUALITY (R25). -/
  cfgQuality : Word
  /-- CFG_CHMODE (R25). -/
  cfgChmode : Word
  /-- CFG_FORMAT (R25). -/
  cfgFormat : Word
  /-- CFG_SFREQ (R25). -/
  cfgSfreq : Word
  /-- PCM_LEN (R28). -/
  pcmLen : Word
  /-- OUT_CAPACITY (R29). -/
  outCapacity : Word
  /-- PCM_BUF at 0x200..0x3FF (R36) and FRAME_BUF at 0x400..0x54F (R37). -/
  mem : Memory
  /-- The response to the transaction of the last step; none where the last step answered no transaction (log 3). -/
  response : Option Response
  /-- The model's own: what the host does next, in port order (log 1). -/
  inputs : List PortEvent
  /-- The model's own: the number of hardware resets since the origin, an index of the free buffer contents (log 5). -/
  resets : Nat
  /-- The model's own: which block of a system this is, an index of the free buffer contents (log 22). No transaction
  answers it: instances have no identifier register (R235). -/
  unitIndex : Nat
  deriving DecidableEq, Repr

/-- Why a run would stop: never. R238: a command error and a bus error are next states, and the step function of the
block is total on every state and transaction. No constructor, so no meaning can raise one; this is safe. -/
inductive Fault where
  deriving DecidableEq, Repr

/-- Why an instruction would have no meaning. -/
inductive Refusal where
  /-- Raised by no arm and no meaning: every row of the table has its meaning. It is the name the host's interface
  keeps for an instruction without one; raising it would be safe. -/
  | notModelled (mnemonic : String)
  deriving DecidableEq, Repr

/-- 128 entries of +0.0 (R38). -/
def silence : Vector F32 128 := Vector.replicate 128 0#32

/-- The machine right after hardware reset (R49, R251). The two buffers list nothing: each of their bytes is a free
value (log 4). The last four fields' values are the model's choice (log 1, 3, 5, 22). -/
def State.reset : State where
  session := .void
  lastError := .none
  actMtu := 0
  actQuality := 0
  actChmode := 0
  actFormat := 0
  actSfreq := 0
  ovl0 := silence
  ovl1 := silence
  blockCount := 0
  consumed := 0
  frameLen := 0
  frameCount := 0
  cfgMtu := 0
  cfgQuality := 0
  cfgChmode := 0
  cfgFormat := 0
  cfgSfreq := 0
  pcmLen := 0
  outCapacity := 0
  mem := []
  response := none
  inputs := []
  resets := 0
  unitIndex := 0

end Sys2Proof.Machine
end

