-- ==== Sys2Proof/Machine/Flags.lean ====
section
/-! DEFINITION. The block's only status flags, STATE and LAST_ERROR (R50): their codes, the tests commands make of
them, and the words the two status reads give (R23, R24). -/

namespace Sys2Proof.Machine

/-- The 3-bit number of STATE (R21). -/
def sessionCode : SessionState → BitVec 3
  | .void => 0#3
  | .uninitialized => 1#3
  | .ready => 2#3
  | .encoding => 3#3
  | .destroyed => 4#3

/-- The 3-bit number of an error code (R24). -/
def errorCode : ErrorCode → BitVec 3
  | .none => 0#3
  | .nonFatal => 1#3
  | .fatal => 2#3
  | .illegalParameter => 3#3
  | .illegalVersion => 4#3

/-- Void and Destroyed are the dead states (R21). -/
def isDead : SessionState → Bool
  | .void | .destroyed => true
  | .uninitialized | .ready | .encoding => false

/-- `STATE in {Ready, Encoding}`: the test of R33, R34, R141 and R163. -/
def isConfigured : SessionState → Bool
  | .ready | .encoding => true
  | .void | .uninitialized | .destroyed => false

/-- STATUS: bits [2:0] are STATE, the others read as 0 (R23). -/
def statusWord (s : State) : Word := (sessionCode s.session).setWidth 32

/-- LAST_ERROR: bits [2:0] are the code, the others read as 0 (R24). -/
def lastErrorWord (s : State) : Word := (errorCode s.lastError).setWidth 32

end Sys2Proof.Machine
end

