-- ==== Sys2Proof/Machine/Ops.lean ====
section
/-! DEFINITION. The named operations over memory, the port and the session that the meanings share: reading and
writing bytes and words of the two buffers, the responses, `raise Error` (this block's exception, R224) and what ends
a successful command, SessionDefaults (R48), and the hardware reset (R250, R252). -/

namespace Sys2Proof.Machine

/-! ## Memory -/

/-- Bus offset of PCM_BUF[0] (R36, R62). -/
def pcmBase : Nat := 0x200

/-- Bytes of PCM_BUF (R36). -/
def pcmSize : Nat := 512

/-- Bus offset of FRAME_BUF[0] (R37, R62). -/
def frameBase : Nat := 0x400

/-- Bytes of FRAME_BUF (R37). -/
def frameSize : Nat := 336

/-- Bus offset `a` holds a byte of PCM_BUF. -/
def inPcmBuf (a : Nat) : Bool := pcmBase ≤ a && a < pcmBase + pcmSize

/-- Bus offset `a` holds a byte of FRAME_BUF. -/
def inFrameBuf (a : Nat) : Bool := frameBase ≤ a && a < frameBase + frameSize

/-- What a byte of block `u` that nothing has written since its `r`-th reset reads as: a free value (R36, R37, R251;
log 4, log 22). -/
def unwrittenByte (u r a : Nat) : Byte := Config.bufferAfterReset u r a

/-- The byte listed at `a`; none where nothing has written it since reset. -/
def Memory.read : Memory → Nat → Option Byte
  | [], _ => none
  | (b, v) :: rest, a => if a = b then some v else Memory.read rest a

/-- Set the byte at `a`, keeping the offsets strictly rising. -/
def Memory.write : Memory → Nat → Byte → Memory
  | [], a, v => [(a, v)]
  | (b, w) :: rest, a, v =>
    if a < b then (a, v) :: (b, w) :: rest
    else if a = b then (a, v) :: rest
    else (b, w) :: Memory.write rest a v

/-- Set the bytes at `a`, `a + 1`, ... in this order. -/
def Memory.writeBytes : Memory → Nat → List Byte → Memory
  | m, _, [] => m
  | m, a, v :: rest => Memory.writeBytes (Memory.write m a v) (a + 1) rest

/-- Every offset of the list is above `lo`, and they rise strictly. -/
def Memory.risesFrom : Nat → Memory → Bool
  | _, [] => true
  | lo, (a, _) :: rest => lo ≤ a && Memory.risesFrom (a + 1) rest

/-- The canonical form: offsets strictly rising, each a byte of PCM_BUF or FRAME_BUF. An unlisted offset reads as no
value at this level, so no entry can equal what an unlisted offset reads as. -/
def Memory.wf (m : Memory) : Bool :=
  Memory.risesFrom 0 m && m.all fun cell => inPcmBuf cell.1 || inFrameBuf cell.1

/-- The byte at bus offset `a`: the value last written, or the free value of an unwritten byte. -/
def byteAt (s : State) (a : Nat) : Byte :=
  match s.mem.read a with
  | some v => v
  | none => unwrittenByte s.unitIndex s.resets a

/-- PCM_BUF[o] (R36). -/
def pcmByte (s : State) (o : Nat) : Byte := byteAt s (pcmBase + o)

/-- FRAME_BUF[o] (R37). -/
def frameByte (s : State) (o : Nat) : Byte := byteAt s (frameBase + o)

/-- Four bytes as a bus word, the first in bits 7..0 (R63). -/
def wordOfBytes (b0 b1 b2 b3 : Byte) : Word := b3 ++ (b2 ++ (b1 ++ b0))

/-- The bytes of a bus word, bits 7..0 first (R63). -/
def bytesOfWord (v : Word) : List Byte :=
  [v.extractLsb' 0 8, v.extractLsb' 8 8, v.extractLsb' 16 8, v.extractLsb' 24 8]

/-- The bus word at bus offset `a` of a buffer (R66). -/
def wordAt (s : State) (a : Nat) : Word :=
  wordOfBytes (byteAt s a) (byteAt s (a + 1)) (byteAt s (a + 2)) (byteAt s (a + 3))

/-- Store bytes from bus offset `a` on. -/
def storeBytes (s : State) (a : Nat) (bytes : List Byte) : State :=
  { s with mem := s.mem.writeBytes a bytes }

/-- Store a bus word at bus offset `a` (R67). -/
def storeWord (s : State) (a : Nat) (v : Word) : State := storeBytes s a (bytesOfWord v)

/-! ## Responses of the port -/

/-- `respond OK` with read data (R66). -/
def answer (s : State) (rdata : Word) : State := { s with response := some ⟨rdata, false⟩ }

/-- `respond OK` to a write: `rsp_rdata` is 0 (R61, R67). -/
def answerWrite (s : State) : State := answer s 0#32

/-- `respond ERR`: the error response, and no state change (R68, R221). -/
def answerError (s : State) : State := { s with response := some ⟨0#32, true⟩ }

/-! ## The two ways a command ends -/

/-- `raise Error(code)` of R224: LAST_ERROR takes the code, the command ends, the bus response is OK, and nothing else
changes (R129). -/
def raiseError (s : State) (code : ErrorCode) : State :=
  answerWrite { s with lastError := code }

/-- The end of a successful command: LAST_ERROR is None and the bus response OK (R24, R67). -/
def commandDone (s : State) : State :=
  answerWrite { s with lastError := .none }

/-- A command other than CREATE (R93, R125): in a dead state it raises Fatal before anything else is looked at. -/
def inLiveState (s : State) (run : State → State) : State :=
  if isDead s.session then raiseError s .fatal else run s

/-! ## Session and reset -/

/-- SessionDefaults() of R48. -/
def sessionDefaults (s : State) : State :=
  { s with
    actMtu := 0
    actQuality := 0
    actChmode := 0
    actFormat := 0
    actSfreq := 0
    ovl0 := silence
    ovl1 := silence
    blockCount := 0
    consumed := 0
    frameLen := 0
    frameCount := 0 }

/-- Hardware reset (R250): the state of R251, whatever was in progress (R252). No response is given. The host's coming
actions are the host's and stay, and the block stays the block it is (log 22); both buffers take fresh free contents
(log 5, log 6). -/
def hardwareReset (s : State) : State :=
  { State.reset with inputs := s.inputs, resets := s.resets + 1, unitIndex := s.unitIndex }

/-- No request on the port: nothing changes (R22, R237) and no response is given. -/
def idle (s : State) : State := { s with response := none }

/-- The port takes the first of the host's actions; these remain. -/
def takeInput (s : State) (rest : List PortEvent) : State := { s with inputs := rest }

end Sys2Proof.Machine
end

