-- ==== Sys2Proof/Machine/Buffers.lean ====
section
/-! DEFINITION. The transactions on PCM_BUF and FRAME_BUF (R66, R67). -/

namespace Sys2Proof.Machine

/-- The bus offset of PCM_BUF word w: 0x200 + 4*w (R62). -/
def pcmWordOffset (w : BitVec 7) : Nat := pcmBase + 4 * w.toNat

/-- The bus offset of FRAME_BUF word w: 0x400 + 4*w (R62). -/
def frameWordOffset (w : Nat) : Nat := frameBase + 4 * w

/-- LDPCM (R67): replaces the four bytes of one word of PCM_BUF. -/
def execLdpcm (w : BitVec 7) (value : Word) (s : State) : Host.Outcome State Fault Refusal :=
  .next (answerWrite (storeWord s (pcmWordOffset w) value))

/-- RD.PCM_BUF (R66). -/
def execRdPcmBuf (w : BitVec 7) (s : State) : Host.Outcome State Fault Refusal :=
  .next (answer s (wordAt s (pcmWordOffset w)))

/-- RDFRM, words 0..63 of FRAME_BUF (R66). -/
def execRdfrm (w : BitVec 6) (s : State) : Host.Outcome State Fault Refusal :=
  .next (answer s (wordAt s (frameWordOffset w.toNat)))

/-- RDFRM.H1, words 64..79 (R66, R94). -/
def execRdfrmH1 (wLow : BitVec 4) (s : State) : Host.Outcome State Fault Refusal :=
  .next (answer s (wordAt s (frameWordOffset (64 + wLow.toNat))))

/-- RDFRM.H2, words 80..83 (R66, R94). -/
def execRdfrmH2 (wLow : BitVec 2) (s : State) : Host.Outcome State Fault Refusal :=
  .next (answer s (wordAt s (frameWordOffset (80 + wLow.toNat))))

end Sys2Proof.Machine
end

