-- ==== Sys2Proof/Machine/Binary32.lean ====
section
/-! DEFINITION. IEEE 754 binary32 with one rounding per operation, to nearest, ties to even (R170): `fmul`, `fadd`,
the exact conversion F32 of R8, and the nearest integer `rne` of R8.

A finite value is an integer number of units of 2^-149, the smallest subnormal: subnormals are kept, so every finite
value is such a multiple. Sums are then exact integers and products exact multiples of 2^-298, and one function,
`roundMagnitude`, rounds once at the end. -/

namespace Sys2Proof.Machine

/-- Bit 31. -/
def signBit (x : F32) : Bool := x.getLsbD 31

/-- Bits 30..23. -/
def expField (x : F32) : Nat := (x.toNat / 2 ^ 23) % 256

/-- Bits 22..0. -/
def fracField (x : F32) : Nat := x.toNat % 2 ^ 23

/-- x is a NaN. -/
def isNaN (x : F32) : Bool := expField x == 255 && fracField x != 0

/-- x is an infinity of either sign. -/
def isInf (x : F32) : Bool := expField x == 255 && fracField x == 0

/-- x is neither a NaN nor an infinity. -/
def isFinite (x : F32) : Bool := expField x != 255

/-- The magnitude of a finite x in units of 2^-149: subnormals have exponent field 0 and no hidden bit. -/
def magnitude (x : F32) : Nat :=
  if expField x = 0 then fracField x
  else (2 ^ 23 + fracField x) * 2 ^ (expField x - 1)

/-- The value of a finite x in units of 2^-149. -/
def units (x : F32) : Int :=
  if signBit x then -(magnitude x : Int) else (magnitude x : Int)

/-- n / 2^d rounded to the nearest natural number, ties to the even one. -/
def rneShift (n d : Nat) : Nat :=
  let q := n / 2 ^ d
  let rem := n % 2 ^ d
  if 2 ^ d < 2 * rem || (2 * rem == 2 ^ d && q % 2 == 1) then q + 1 else q

/-- The pattern with this sign and these low 31 bits. -/
def withSign (s : Bool) (low : Nat) : F32 :=
  BitVec.ofNat 32 ((if s then 2 ^ 31 else 0) + low)

/-- The low 31 bits of an infinity. -/
def infinityLow : Nat := 255 * 2 ^ 23

/-- The low 31 bits of the binary32 magnitude nearest to n * 2^-k units of 2^-149, ties to even, before the
overflow test. The significand keeps 24 bits or as many as fit above 2^-149; adding the significand's hidden bit into
the exponent field makes subnormals, normals and a carry out of the significand one formula. -/
def roundMagnitude (n k : Nat) : Nat :=
  let d := max k (Nat.log2 n - 23)
  (d - k) * 2 ^ 23 + rneShift n d

/-- n * 2^-k units of 2^-149 with a sign, rounded once to binary32 (R170); past the largest finite value it is an
infinity. -/
def roundToF32 (s : Bool) (n k : Nat) : F32 :=
  withSign s (min (roundMagnitude n k) infinityLow)

/-- The NaN that an operation on a and b gives; which one is a free value (log 11). -/
def nanOf (a b : F32) : F32 :=
  withSign (Config.nanBits a b).1 (infinityLow + (1 + (Config.nanBits a b).2.val))

/-- Binary32 multiplication (R170): the sign of a product is the exclusive-or of the signs. -/
def fmul (a b : F32) : F32 :=
  let s := signBit a ^^ signBit b
  if isNaN a || isNaN b then nanOf a b
  else if isInf a || isInf b then
    if magnitude a = 0 || magnitude b = 0 then nanOf a b else withSign s infinityLow
  else roundToF32 s (magnitude a * magnitude b) 149

/-- Binary32 addition (R170): an exact zero sum is +0.0 unless both operands are -0.0. -/
def fadd (a b : F32) : F32 :=
  if isNaN a || isNaN b then nanOf a b
  else if isInf a then
    if isInf b && signBit a != signBit b then nanOf a b else a
  else if isInf b then b
  else
    let t := units a + units b
    if t = 0 then withSign (signBit a && signBit b) 0
    else roundToF32 (t < 0) t.natAbs 0

/-- -x: x with the sign bit inverted (R173 writes -T[j] for T[j] with the sign bit set). -/
def fneg (x : F32) : F32 := x ^^^ 0x80000000#32

/-- F32(i) of R8: the binary32 value equal to the integer i, used for -32768..32767, where it is exact. -/
def f32OfInt (i : Int) : F32 :=
  roundToF32 (i < 0) (i.natAbs * 2 ^ 149) 0

/-- R147: one 16-bit sample, sign-extended and converted without scaling. -/
def f32OfSample (v : BitVec 16) : F32 := f32OfInt v.toInt

/-- rne of R8: the integer nearest the finite y, ties to even. -/
def rne (y : F32) : Int :=
  if signBit y then -(rneShift (magnitude y) 149 : Int) else (rneShift (magnitude y) 149 : Int)

/-- clip of R8. -/
def clip (r lo hi : Int) : Int :=
  if r < lo then lo else if hi < r then hi else r

end Sys2Proof.Machine
end

