-- ==== Sys2Proof/Machine/Rom.lean ====
section
/-! DEFINITION. The ROM of R171, and the window and the basis read from it (R172, R173). A constant, no state (R42). -/

namespace Sys2Proof.Machine

/-- T[0..31] of R171. -/
def romRows0 : List F32 :=
  [0x3F7FFEC4#32, 0x3F7FF4E6#32, 0x3F7FE129#32, 0x3F7FC38F#32,
   0x3F7F9C18#32, 0x3F7F6AC7#32, 0x3F7F2F9D#32, 0x3F7EEA9D#32,
   0x3F7E9BC9#32, 0x3F7E4323#32, 0x3F7DE0B1#32, 0x3F7D7474#32,
   0x3F7CFE73#32, 0x3F7C7EB0#32, 0x3F7BF531#32, 0x3F7B61FC#32,
   0x3F7AC516#32, 0x3F7A1E84#32, 0x3F796E4E#32, 0x3F78B47B#32,
   0x3F77F110#32, 0x3F772417#32, 0x3F764D97#32, 0x3F756D97#32,
   0x3F748422#32, 0x3F73913F#32, 0x3F7294F8#32, 0x3F718F57#32,
   0x3F708066#32, 0x3F6F6830#32, 0x3F6E46BE#32, 0x3F6D1C1D#32]

/-- T[32..63] of R171. -/
def romRows1 : List F32 :=
  [0x3F6BE858#32, 0x3F6AAB7B#32, 0x3F696591#32, 0x3F6816A8#32,
   0x3F66BECC#32, 0x3F655E0B#32, 0x3F63F473#32, 0x3F628210#32,
   0x3F6106F2#32, 0x3F5F8327#32, 0x3F5DF6BE#32, 0x3F5C61C7#32,
   0x3F5AC450#32, 0x3F591E6A#32, 0x3F577026#32, 0x3F55B993#32,
   0x3F53FAC3#32, 0x3F5233C6#32, 0x3F5064AF#32, 0x3F4E8D90#32,
   0x3F4CAE79#32, 0x3F4AC77F#32, 0x3F48D8B3#32, 0x3F46E22A#32,
   0x3F44E3F5#32, 0x3F42DE29#32, 0x3F40D0DA#32, 0x3F3EBC1B#32,
   0x3F3CA003#32, 0x3F3A7CA4#32, 0x3F385216#32, 0x3F36206C#32]

/-- T[64..95] of R171. -/
def romRows2 : List F32 :=
  [0x3F33E7BC#32, 0x3F31A81D#32, 0x3F2F61A5#32, 0x3F2D1469#32,
   0x3F2AC082#32, 0x3F286605#32, 0x3F26050A#32, 0x3F239DA9#32,
   0x3F212FF9#32, 0x3F1EBC12#32, 0x3F1C420C#32, 0x3F19C200#32,
   0x3F173C07#32, 0x3F14B039#32, 0x3F121EB0#32, 0x3F0F8784#32,
   0x3F0CEAD0#32, 0x3F0A48AD#32, 0x3F07A136#32, 0x3F04F484#32,
   0x3F0242B1#32, 0x3EFF17B2#32, 0x3EF9A02D#32, 0x3EF41F07#32,
   0x3EEE9479#32, 0x3EE900B7#32, 0x3EE363FA#32, 0x3EDDBE79#32,
   0x3ED8106B#32, 0x3ED25A09#32, 0x3ECC9B8B#32, 0x3EC6D529#32]

/-- T[96..127] of R171. -/
def romRows3 : List F32 :=
  [0x3EC1071E#32, 0x3EBB31A0#32, 0x3EB554EC#32, 0x3EAF713A#32,
   0x3EA986C4#32, 0x3EA395C5#32, 0x3E9D9E78#32, 0x3E97A117#32,
   0x3E919DDD#32, 0x3E8B9507#32, 0x3E8586CE#32, 0x3E7EE6E1#32,
   0x3E72B651#32, 0x3E667C66#32, 0x3E5A3997#32, 0x3E4DEE60#32,
   0x3E419B37#32, 0x3E354098#32, 0x3E28DEFC#32, 0x3E1C76DE#32,
   0x3E1008B7#32, 0x3E039502#32, 0x3DEE3876#32, 0x3DD53DB9#32,
   0x3DBC3AC3#32, 0x3DA3308C#32, 0x3D8A200A#32, 0x3D621469#32,
   0x3D2FE007#32, 0x3CFB49BA#32, 0x3C96C9B6#32, 0x3BC90F88#32]

/-- The ROM T[0..127] (R171). -/
def rom : List F32 := romRows0 ++ (romRows1 ++ (romRows2 ++ romRows3))

/-- T[j], j in 0..127. No rule reads outside that range. -/
def romAt (j : Nat) : F32 := rom.getD j 0#32

/-- WIN[n] of R172, n in 0..255. -/
def win (n : Nat) : F32 :=
  if n < 128 then romAt (127 - n) else romAt (n - 128)

/-- The folded index m of R173: odd, 1..511. -/
def basIndex (k n : Nat) : Nat :=
  let m := ((2 * n + 129) * (2 * k + 1)) % 1024
  if 512 < m then 1024 - m else m

/-- BAS[k][n] of R173, k in 0..127 and n in 0..255. -/
def bas (k n : Nat) : F32 :=
  let m := basIndex k n
  if m < 256 then romAt ((m - 1) / 2) else fneg (romAt ((511 - m) / 2))

end Sys2Proof.Machine
end

