-- ==== Sys2Proof/Machine/Transform.lean ====
section
/-! DEFINITION. The transform kernel (R174 to R176) and the coefficient quantizer (R178). -/

namespace Sys2Proof.Machine

/-- One step of the sum of R175: the product is rounded before it is added. -/
def accumulate (bas : Nat → F32) (z : Nat → F32) (acc : F32) (n : Nat) : F32 :=
  fadd acc (fmul (bas n) (z n))

/-- X[k] of R175 from the windowed samples: +0.0 plus the 256 products, in the order n = 0, 1, ..., 255. -/
def project (bas : Nat → F32) (z : Nat → F32) : F32 :=
  (List.range 256).foldl (accumulate bas z) 0#32

/-- z[n] of R174. -/
def windowed (win : Nat → F32) (a : Nat → F32) (n : Nat) : F32 :=
  fmul (win n) (a n)

/-- The composition of R176, R174 then R175, for any window and basis. -/
def transformWith (win : Nat → F32) (bas : Nat → Nat → F32) (a : Nat → F32) (k : Nat) : F32 :=
  project (bas k) (windowed win a)

/-- Transform(a)[k] of R176 on the ROM of R171. -/
def transform (a : Nat → F32) (k : Nat) : F32 :=
  transformWith win bas a k

/-- 2^-15, the scale of R178. -/
def quantizerScale : F32 := 0x38000000#32

/-- Q(x) of R178, defined on all 2^32 bit patterns. -/
def quantize (x : F32) : Byte :=
  if isNaN x then 128#8
  else
    let y := fmul x quantizerScale
    if isInf y then (if signBit y then 0#8 else 255#8)
    else BitVec.ofInt 8 (clip (rne y) (-128) 127 + 128)

end Sys2Proof.Machine
end

