-- ==== Sys2Proof/Machine/Lep10.lean ====
section
/-! DEFINITION. The LEP-1.0 values of the configuration record (R6, R171 to R178, R203). -/

namespace Sys2Proof.Machine

/-- LEP-1.0. -/
def lep10 : Config where
  qHigh := 0#32
  qStandard := 1#32
  qMobile := 2#32
  cmStereo := 0#32
  cmDual := 1#32
  cmMono := 2#32
  nchStereo := 2
  nchDual := 2
  nchMono := 1
  fmtS16 := 0#32
  fmtS24 := 1#32
  fmtS32 := 2#32
  fmtF32 := 3#32
  capMin := fun p => 3 + p
  ofSample := f32OfSample
  win := win
  bas := bas
  transform := transformWith
  quantize := quantize
  padByte := 0x00#8

end Sys2Proof.Machine
end

