-- ==== Sys2Proof/Machine/Operands.lean ====
section
/-! DEFINITION. Operand decoding (R95): the enumerants, the validity test of CONFIGURE (R114), the number of active
channels (R143), payloadBytes (R160), sfIdx (R201) and the bitrate (R162). Each takes the configuration record, whose
LEP-1.0 values are `lep10`. -/

namespace Sys2Proof.Machine

/-- CFG_QUALITY in {High, Standard, Mobile}, all 32 bits compared (R95, R114). -/
def qualityValid (c : Config) (v : Word) : Bool := v == c.qHigh || v == c.qStandard || v == c.qMobile

/-- CFG_CHMODE in {Stereo, DualChannel, Mono} (R95, R114). -/
def chmodeValid (c : Config) (v : Word) : Bool := v == c.cmStereo || v == c.cmDual || v == c.cmMono

/-- CFG_FORMAT in {S16, S24, S32, F32} (R95, R114). -/
def formatValid (c : Config) (v : Word) : Bool :=
  v == c.fmtS16 || v == c.fmtS24 || v == c.fmtS32 || v == c.fmtF32

/-- CFG_SFREQ in {44100, 48000, 88200, 96000} (R95, R114). -/
def sfreqValid (v : Word) : Bool := v == 44100#32 || v == 48000#32 || v == 88200#32 || v == 96000#32

/-- ConfigValid() of R114 on four given fields. -/
def fieldsValid (c : Config) (quality chmode format sfreq : Word) : Bool :=
  sfreqValid sfreq && chmodeValid c chmode && qualityValid c quality && formatValid c format

/-- ConfigValid() of R114 on the staging registers. -/
def configValid (c : Config) (s : State) : Bool :=
  fieldsValid c s.cfgQuality s.cfgChmode s.cfgFormat s.cfgSfreq

/-- nch of R143 and R27; as in R141 a word that is neither Mono nor DualChannel counts as Stereo. -/
def nch (c : Config) (chmode : Word) : Nat :=
  if chmode = c.cmMono then c.nchMono
  else if chmode = c.cmDual then c.nchDual
  else c.nchStereo

/-- payloadBytes of R160; on any other word a free value (log 9). -/
def payloadBytes (c : Config) (quality : Word) : Nat :=
  if quality = c.qHigh then 330
  else if quality = c.qStandard then 220
  else if quality = c.qMobile then 110
  else (Config.payloadBytesUnstated quality).val

/-- sfIdx of R201; on any other word a free value (log 10). -/
def sfIdx (freq : Word) : BitVec 3 :=
  if freq = 44100#32 then 0#3
  else if freq = 48000#32 then 1#3
  else if freq = 88200#32 then 2#3
  else if freq = 96000#32 then 3#3
  else Config.sfIdxUnstated freq

/-- bitrate(q, f) of R162: product first, division by 128 last, truncated. The rule computes on "at least 32 bits", so
a product that 32 bits do not hold has a free result (log 16). -/
def bitrate (c : Config) (quality freq : Word) : Word :=
  let product := payloadBytes c quality * 8 * freq.toNat
  if product < 2 ^ 32 then BitVec.ofNat 32 (product / 128) else Config.bitrateUnstated quality freq

/-- BITRATE (R33, R163): 0 unless configured. -/
def bitrateWord (c : Config) (s : State) : Word :=
  if isConfigured s.session then bitrate c s.actQuality s.actSfreq else 0#32

/-- SFREQ (R34, R122): 0 unless configured. -/
def sfreqWord (s : State) : Word :=
  if isConfigured s.session then s.actSfreq else 0#32

end Sys2Proof.Machine
end

