-- ==== Sys2Proof/Machine/Packer.lean ====
section
/-! DEFINITION. The frame packer (R200 to R205). -/

namespace Sys2Proof.Machine

/-- FRAME_BUF[0] (R200). -/
def syncByte : Byte := 0xAA#8

/-- hdr of R202: `((sfIdx << 5) | (ACT_CHMODE & 0x7)) & 0xFF`. -/
def headerByte (freq chmode : Word) : Byte :=
  ((((sfIdx freq).setWidth 32) <<< 5) ||| (chmode &&& 0x7#32)).setWidth 8

/-- The length byte of R204: P mod 256. -/
def lengthByte (p : Nat) : Byte := BitVec.ofNat 8 p

/-- pay[i] of R203 from the coefficients X[channel][k]. -/
def payloadByte (c : Config) (x : Nat → Nat → F32) (channels i : Nat) : Byte :=
  if i < 128 * channels then c.quantize (x (i % channels) (i / channels)) else c.padByte

/-- Payload(X, nch, P) of R203. -/
def payload (c : Config) (x : Nat → Nat → F32) (channels p : Nat) : List Byte :=
  (List.range p).map (payloadByte c x channels)

/-- Frame(ACT_SFREQ, ACT_CHMODE, P, pay) of R205, as the bytes FRAME_BUF[0 .. 2+P]. -/
def frameBytes (freq chmode : Word) (p : Nat) (pay : List Byte) : List Byte :=
  syncByte :: headerByte freq chmode :: lengthByte p :: pay

end Sys2Proof.Machine
end

