-- ==== Sys2Proof/Machine/Encode.lean ====
section
/-! DEFINITION. ENCODE (R140, R141): admission, the pure pipeline, the commit. -/

namespace Sys2Proof.Machine

/-! ## The pipeline: transient values of one ENCODE (R43) -/

/-- Sample j of a channel as its 16 bits, little-endian, at PCM_BUF offset 2*(j*nch + channel) (R75). -/
def pcmSample (s : State) (channels channel j : Nat) : BitVec 16 :=
  pcmByte s (2 * (j * channels + channel) + 1) ++ pcmByte s (2 * (j * channels + channel))

/-- u[channel][j] of R147. -/
def newSample (c : Config) (s : State) (channels channel j : Nat) : F32 :=
  c.ofSample (pcmSample s channels channel j)

/-- OVL[channel] (R38). -/
def overlap (s : State) (channel : Nat) : Vector F32 128 :=
  if channel = 0 then s.ovl0 else s.ovl1

/-- a[channel][n] of R145: the retained tail, then the new block. -/
def analysisInput (c : Config) (s : State) (channels channel n : Nat) : F32 :=
  if h : n < 128 then (overlap s channel)[n] else newSample c s channels channel (n - 128)

/-- X[channel][k] of R141. -/
def coefficient (c : Config) (s : State) (channels channel k : Nat) : F32 :=
  c.transform c.win c.bas (analysisInput c s channels channel) k

/-- The bytes that a successful ENCODE in s writes to FRAME_BUF[0 .. 2+P] (R141, R205). -/
def encodeFrame (c : Config) (s : State) : List Byte :=
  let channels := nch c s.actChmode
  let p := payloadBytes c s.actQuality
  frameBytes s.actSfreq s.actChmode p (payload c (coefficient c s channels) channels p)

/-- The new contents of OVL[channel], all 128 samples of the block in order (R148). -/
def newOverlap (c : Config) (s : State) (channels channel : Nat) : Vector F32 128 :=
  Vector.ofFn fun j => newSample c s channels channel j.val

/-! ## Commit and admission -/

/-- The writes of R141's commit part but for LAST_ERROR: frame, overlap of the active channels (R148), counter
(R151), results (R30 to R32), STATE. Every value is computed from the state before the first write. -/
def encodeCommit (c : Config) (s : State) : State :=
  let channels := nch c s.actChmode
  let p := payloadBytes c s.actQuality
  { storeBytes s frameBase (encodeFrame c s) with
    ovl0 := newOverlap c s channels 0
    ovl1 := if 1 < channels then newOverlap c s channels 1 else s.ovl1
    blockCount := s.blockCount + 1
    consumed := BitVec.ofNat 32 (256 * channels)
    frameLen := BitVec.ofNat 32 (3 + p)
    frameCount := 1
    session := .encoding }

/-- ENCODE in a live state (R141): four checks that read only, then the commit. -/
def encodeLive (c : Config) (s : State) : State :=
  if !isConfigured s.session then raiseError s .illegalParameter
  else if s.actFormat ≠ c.fmtS16 then raiseError s .illegalParameter
  else if s.pcmLen ≠ BitVec.ofNat 32 (256 * nch c s.actChmode) then raiseError s .illegalParameter
  else if s.outCapacity.toNat < c.capMin (payloadBytes c s.actQuality) then raiseError s .illegalParameter
  else commandDone (encodeCommit c s)

/-- ENCODE (R140). -/
def execEncode (s : State) : Host.Outcome State Fault Refusal :=
  .next (inLiveState s (encodeLive lep10))

end Sys2Proof.Machine
end

