-- ==== Sys2Proof/Machine/Registers.lean ====
section
/-! DEFINITION. The transactions on the port registers and the result registers (R66, R67), and BUS.ERR (R68). A
write keeps all 32 bits, is not validated, and is accepted in every state; a read changes nothing but the response. -/

namespace Sys2Proof.Machine

/-- WR.CFG_MTU (R67, R25). -/
def execWrCfgMtu (value : Word) (s : State) : Host.Outcome State Fault Refusal :=
  .next (answerWrite { s with cfgMtu := value })

/-- RD.CFG_MTU (R66, R25). -/
def execRdCfgMtu (s : State) : Host.Outcome State Fault Refusal :=
  .next (answer s s.cfgMtu)

/-- WR.CFG_QUALITY (R67, R25). -/
def execWrCfgQuality (value : Word) (s : State) : Host.Outcome State Fault Refusal :=
  .next (answerWrite { s with cfgQuality := value })

/-- RD.CFG_QUALITY (R66, R25). -/
def execRdCfgQuality (s : State) : Host.Outcome State Fault Refusal :=
  .next (answer s s.cfgQuality)

/-- WR.CFG_CHMODE (R67, R25). -/
def execWrCfgChmode (value : Word) (s : State) : Host.Outcome State Fault Refusal :=
  .next (answerWrite { s with cfgChmode := value })

/-- RD.CFG_CHMODE (R66, R25). -/
def execRdCfgChmode (s : State) : Host.Outcome State Fault Refusal :=
  .next (answer s s.cfgChmode)

/-- WR.CFG_FORMAT (R67, R25). -/
def execWrCfgFormat (value : Word) (s : State) : Host.Outcome State Fault Refusal :=
  .next (answerWrite { s with cfgFormat := value })

/-- RD.CFG_FORMAT (R66, R25). -/
def execRdCfgFormat (s : State) : Host.Outcome State Fault Refusal :=
  .next (answer s s.cfgFormat)

/-- WR.CFG_SFREQ (R67, R25). -/
def execWrCfgSfreq (value : Word) (s : State) : Host.Outcome State Fault Refusal :=
  .next (answerWrite { s with cfgSfreq := value })

/-- RD.CFG_SFREQ (R66, R25). -/
def execRdCfgSfreq (s : State) : Host.Outcome State Fault Refusal :=
  .next (answer s s.cfgSfreq)

/-- WR.PCM_LEN (R67, R28). -/
def execWrPcmLen (value : Word) (s : State) : Host.Outcome State Fault Refusal :=
  .next (answerWrite { s with pcmLen := value })

/-- RD.PCM_LEN (R66, R28). -/
def execRdPcmLen (s : State) : Host.Outcome State Fault Refusal :=
  .next (answer s s.pcmLen)

/-- WR.OUT_CAPACITY (R67, R29). -/
def execWrOutCapacity (value : Word) (s : State) : Host.Outcome State Fault Refusal :=
  .next (answerWrite { s with outCapacity := value })

/-- RD.OUT_CAPACITY (R66, R29). -/
def execRdOutCapacity (s : State) : Host.Outcome State Fault Refusal :=
  .next (answer s s.outCapacity)

/-- RD.BLOCK_COUNT_LO (R66, R35): BLOCK_COUNT[31:0]. -/
def execRdBlockCountLo (s : State) : Host.Outcome State Fault Refusal :=
  .next (answer s (s.blockCount.extractLsb' 0 32))

/-- RD.BLOCK_COUNT_HI (R66, R35): BLOCK_COUNT[63:32]. -/
def execRdBlockCountHi (s : State) : Host.Outcome State Fault Refusal :=
  .next (answer s (s.blockCount.extractLsb' 32 32))

/-- RD.CONSUMED (R66, R30). -/
def execRdConsumed (s : State) : Host.Outcome State Fault Refusal :=
  .next (answer s s.consumed)

/-- RD.FRAME_LEN (R66, R31). -/
def execRdFrameLen (s : State) : Host.Outcome State Fault Refusal :=
  .next (answer s s.frameLen)

/-- RD.FRAME_COUNT (R66, R32). -/
def execRdFrameCount (s : State) : Host.Outcome State Fault Refusal :=
  .next (answer s s.frameCount)

/-- BUS.ERR (R68, R221): the error response and no state change, whatever the request. -/
def execBusErr (_we : Bool) (_addr : Addr) (_wdata : Word) (s : State) : Host.Outcome State Fault Refusal :=
  .next (answerError s)

end Sys2Proof.Machine
end

