-- ==== Sys2Proof/Machine/Session.lean ====
section
/-! DEFINITION. The session commands CREATE, CONFIGURE, DESTROY, CMD.ILLEGAL (40_session.md) and the queries
RD.STATUS, GETERR, GETSF, GETBR. -/

namespace Sys2Proof.Machine

/-- CREATE (R110): accepted in every state, cannot fail. -/
def execCreate (s : State) : Host.Outcome State Fault Refusal :=
  .next (commandDone { sessionDefaults s with session := .uninitialized })

/-- The writes of a successful CONFIGURE (R113, R115): all 32 bits of each staging register, OVL and BLOCK_COUNT zero,
STATE Ready. -/
def configureCommit (s : State) : State :=
  { s with
    actMtu := s.cfgMtu
    actQuality := s.cfgQuality
    actChmode := s.cfgChmode
    actFormat := s.cfgFormat
    actSfreq := s.cfgSfreq
    ovl0 := silence
    ovl1 := silence
    blockCount := 0
    session := .ready }

/-- CONFIGURE in a live state (R113): R116's check of STATE, then R114's of the fields. -/
def configureLive (c : Config) (s : State) : State :=
  if s.session ≠ .uninitialized then raiseError s .illegalParameter
  else if !configValid c s then raiseError s .illegalParameter
  else commandDone (configureCommit s)

/-- CONFIGURE (R113). -/
def execConfigure (s : State) : Host.Outcome State Fault Refusal :=
  .next (inLiveState s (configureLive lep10))

/-- DESTROY (R120): in a live state it cannot fail; in a dead one it raises Fatal (R125). -/
def execDestroy (s : State) : Host.Outcome State Fault Refusal :=
  .next (inLiveState s fun t => commandDone { sessionDefaults t with session := .destroyed })

/-- CMD.ILLEGAL (R126; Fatal in a dead state, R125). The word's value does not matter. -/
def execCmdIllegal (_word : Word) (s : State) : Host.Outcome State Fault Refusal :=
  .next (inLiveState s fun t => raiseError t .illegalParameter)

/-- RD.STATUS (R124). -/
def execRdStatus (s : State) : Host.Outcome State Fault Refusal :=
  .next (answer s (statusWord s))

/-- GETERR (R123): reading has no side effect. -/
def execGetErr (s : State) : Host.Outcome State Fault Refusal :=
  .next (answer s (lastErrorWord s))

/-- GETBR (R163). -/
def execGetBr (s : State) : Host.Outcome State Fault Refusal :=
  .next (answer s (bitrateWord lep10 s))

/-- GETSF (R122). -/
def execGetSf (s : State) : Host.Outcome State Fault Refusal :=
  .next (answer s (sfreqWord s))

end Sys2Proof.Machine
end

