-- ==== Sys2Proof/Machine/Dispatch.lean ====
section
/-! DEFINITION. One arm per instruction, each a direct call of its meaning. -/

namespace Sys2Proof.Machine

def exec (i : Instr) (s : State) : Host.Outcome State Fault Refusal :=
  match i with
  | .create => Sys2Proof.Machine.execCreate s
  | .configure => Sys2Proof.Machine.execConfigure s
  | .encode => Sys2Proof.Machine.execEncode s
  | .destroy => Sys2Proof.Machine.execDestroy s
  | .cmdIllegal word => Sys2Proof.Machine.execCmdIllegal word s
  | .rdStatus => Sys2Proof.Machine.execRdStatus s
  | .getErr => Sys2Proof.Machine.execGetErr s
  | .wrCfgMtu value => Sys2Proof.Machine.execWrCfgMtu value s
  | .rdCfgMtu => Sys2Proof.Machine.execRdCfgMtu s
  | .wrCfgQuality value => Sys2Proof.Machine.execWrCfgQuality value s
  | .rdCfgQuality => Sys2Proof.Machine.execRdCfgQuality s
  | .wrCfgChmode value => Sys2Proof.Machine.execWrCfgChmode value s
  | .rdCfgChmode => Sys2Proof.Machine.execRdCfgChmode s
  | .wrCfgFormat value => Sys2Proof.Machine.execWrCfgFormat value s
  | .rdCfgFormat => Sys2Proof.Machine.execRdCfgFormat s
  | .wrCfgSfreq value => Sys2Proof.Machine.execWrCfgSfreq value s
  | .rdCfgSfreq => Sys2Proof.Machine.execRdCfgSfreq s
  | .wrPcmLen value => Sys2Proof.Machine.execWrPcmLen value s
  | .rdPcmLen => Sys2Proof.Machine.execRdPcmLen s
  | .wrOutCapacity value => Sys2Proof.Machine.execWrOutCapacity value s
  | .rdOutCapacity => Sys2Proof.Machine.execRdOutCapacity s
  | .getBr => Sys2Proof.Machine.execGetBr s
  | .getSf => Sys2Proof.Machine.execGetSf s
  | .rdBlockCountLo => Sys2Proof.Machine.execRdBlockCountLo s
  | .rdBlockCountHi => Sys2Proof.Machine.execRdBlockCountHi s
  | .rdConsumed => Sys2Proof.Machine.execRdConsumed s
  | .rdFrameLen => Sys2Proof.Machine.execRdFrameLen s
  | .rdFrameCount => Sys2Proof.Machine.execRdFrameCount s
  | .ldpcm w value => Sys2Proof.Machine.execLdpcm w value s
  | .rdPcmBuf w => Sys2Proof.Machine.execRdPcmBuf w s
  | .rdfrm w => Sys2Proof.Machine.execRdfrm w s
  | .rdfrmH1 wLow => Sys2Proof.Machine.execRdfrmH1 wLow s
  | .rdfrmH2 wLow => Sys2Proof.Machine.execRdfrmH2 wLow s
  | .busErr we addr wdata => Sys2Proof.Machine.execBusErr we addr wdata s

end Sys2Proof.Machine
end

