-- ==== Sys2Proof/Machine/Step.lean ====
section
/-! DEFINITION. One step of the block: the port takes the host's next action and answers it (R10, R66, R67). -/

namespace Sys2Proof.Machine

/-- One step. With no action of the host the block is idle (R22, R237); a reset puts the block in the reset state
(R250, R252); a request is decoded (R94) and executed whole before the next is taken (R70). -/
def step (s : State) : Host.Outcome State Fault Refusal :=
  match s.inputs with
  | [] => .next (idle s)
  | .reset _ :: rest => .next (hardwareReset (takeInput s rest))
  | .request r :: rest => exec (decodeRequest r) (takeInput s rest)

/-- s with the transaction whose bits are w (numbered as the opcode table numbers them, bits at and above nbits 0)
as the request the port takes next, so that the next step runs exactly it (log 1, log 12). -/
def State.withFetchWord (s : State) (nbits w : Nat) : State :=
  { s with inputs := .request (unpackRequest (BitVec.ofNat 45 (w % 2 ^ nbits))) :: s.inputs }

end Sys2Proof.Machine
end

