-- ==== Sys2Proof/Machine/OpcodeTable.lean ====
section
/-! DEFINITION. spec/opcode_table.json as data (R94): match and mask of every row on the 45-bit format T, in the
table's order, BUS.ERR last. The decoder does not read it; statements compare the two. -/

namespace Sys2Proof.Machine

/-- One row of the table. -/
structure OpcodeRow where
  mnemonic : String
  pattern : BitVec 45
  mask : BitVec 45
  deriving DecidableEq, Repr

/-- The 34 rows. -/
def opcodeTable : List OpcodeRow :=
  [⟨"CREATE", 0x100000000001#45, 0x1FFFFFFFFFFF#45⟩,
   ⟨"CONFIGURE", 0x100000000002#45, 0x1FFFFFFFFFFF#45⟩,
   ⟨"ENCODE", 0x100000000003#45, 0x1FFFFFFFFFFF#45⟩,
   ⟨"DESTROY", 0x100000000004#45, 0x1FFFFFFFFFFF#45⟩,
   ⟨"CMD.ILLEGAL", 0x100000000000#45, 0x1FFF00000000#45⟩,
   ⟨"RD.STATUS", 0x000400000000#45, 0x1FFF00000000#45⟩,
   ⟨"GETERR", 0x000800000000#45, 0x1FFF00000000#45⟩,
   ⟨"WR.CFG_MTU", 0x100C00000000#45, 0x1FFF00000000#45⟩,
   ⟨"RD.CFG_MTU", 0x000C00000000#45, 0x1FFF00000000#45⟩,
   ⟨"WR.CFG_QUALITY", 0x101000000000#45, 0x1FFF00000000#45⟩,
   ⟨"RD.CFG_QUALITY", 0x001000000000#45, 0x1FFF00000000#45⟩,
   ⟨"WR.CFG_CHMODE", 0x101400000000#45, 0x1FFF00000000#45⟩,
   ⟨"RD.CFG_CHMODE", 0x001400000000#45, 0x1FFF00000000#45⟩,
   ⟨"WR.CFG_FORMAT", 0x101800000000#45, 0x1FFF00000000#45⟩,
   ⟨"RD.CFG_FORMAT", 0x001800000000#45, 0x1FFF00000000#45⟩,
   ⟨"WR.CFG_SFREQ", 0x101C00000000#45, 0x1FFF00000000#45⟩,
   ⟨"RD.CFG_SFREQ", 0x001C00000000#45, 0x1FFF00000000#45⟩,
   ⟨"WR.PCM_LEN", 0x102000000000#45, 0x1FFF00000000#45⟩,
   ⟨"RD.PCM_LEN", 0x002000000000#45, 0x1FFF00000000#45⟩,
   ⟨"WR.OUT_CAPACITY", 0x102400000000#45, 0x1FFF00000000#45⟩,
   ⟨"RD.OUT_CAPACITY", 0x002400000000#45, 0x1FFF00000000#45⟩,
   ⟨"GETBR", 0x002800000000#45, 0x1FFF00000000#45⟩,
   ⟨"GETSF", 0x002C00000000#45, 0x1FFF00000000#45⟩,
   ⟨"RD.BLOCK_COUNT_LO", 0x003000000000#45, 0x1FFF00000000#45⟩,
   ⟨"RD.BLOCK_COUNT_HI", 0x003400000000#45, 0x1FFF00000000#45⟩,
   ⟨"RD.CONSUMED", 0x003800000000#45, 0x1FFF00000000#45⟩,
   ⟨"RD.FRAME_LEN", 0x003C00000000#45, 0x1FFF00000000#45⟩,
   ⟨"RD.FRAME_COUNT", 0x004000000000#45, 0x1FFF00000000#45⟩,
   ⟨"LDPCM", 0x120000000000#45, 0x1E0300000000#45⟩,
   ⟨"RD.PCM_BUF", 0x020000000000#45, 0x1E0300000000#45⟩,
   ⟨"RDFRM", 0x040000000000#45, 0x1F0300000000#45⟩,
   ⟨"RDFRM.H1", 0x050000000000#45, 0x1FC300000000#45⟩,
   ⟨"RDFRM.H2", 0x054000000000#45, 0x1FF300000000#45⟩,
   ⟨"BUS.ERR", 0x000000000000#45, 0x000000000000#45⟩]

/-- A transaction fits a row: the bits under the mask are the row's. -/
def OpcodeRow.fits (row : OpcodeRow) (t : BitVec 45) : Bool := t &&& row.mask == row.pattern

/-- The mnemonic of the first row that a transaction fits (R94: a decoder tries the rows in the order given). -/
def tableMnemonic (t : BitVec 45) : Option String :=
  (opcodeTable.find? fun row => row.fits t).map OpcodeRow.mnemonic

/-- The table's name of an instruction. -/
def mnemonicOf : Instr → String
  | .create => "CREATE"
  | .configure => "CONFIGURE"
  | .encode => "ENCODE"
  | .destroy => "DESTROY"
  | .cmdIllegal _ => "CMD.ILLEGAL"
  | .rdStatus => "RD.STATUS"
  | .getErr => "GETERR"
  | .wrCfgMtu _ => "WR.CFG_MTU"
  | .rdCfgMtu => "RD.CFG_MTU"
  | .wrCfgQuality _ => "WR.CFG_QUALITY"
  | .rdCfgQuality => "RD.CFG_QUALITY"
  | .wrCfgChmode _ => "WR.CFG_CHMODE"
  | .rdCfgChmode => "RD.CFG_CHMODE"
  | .wrCfgFormat _ => "WR.CFG_FORMAT"
  | .rdCfgFormat => "RD.CFG_FORMAT"
  | .wrCfgSfreq _ => "WR.CFG_SFREQ"
  | .rdCfgSfreq => "RD.CFG_SFREQ"
  | .wrPcmLen _ => "WR.PCM_LEN"
  | .rdPcmLen => "RD.PCM_LEN"
  | .wrOutCapacity _ => "WR.OUT_CAPACITY"
  | .rdOutCapacity => "RD.OUT_CAPACITY"
  | .getBr => "GETBR"
  | .getSf => "GETSF"
  | .rdBlockCountLo => "RD.BLOCK_COUNT_LO"
  | .rdBlockCountHi => "RD.BLOCK_COUNT_HI"
  | .rdConsumed => "RD.CONSUMED"
  | .rdFrameLen => "RD.FRAME_LEN"
  | .rdFrameCount => "RD.FRAME_COUNT"
  | .ldpcm _ _ => "LDPCM"
  | .rdPcmBuf _ => "RD.PCM_BUF"
  | .rdfrm _ => "RDFRM"
  | .rdfrmH1 _ => "RDFRM.H1"
  | .rdfrmH2 _ => "RDFRM.H2"
  | .busErr _ _ _ => "BUS.ERR"

end Sys2Proof.Machine
end

