-- ==== Sys2Proof/Machine/System.lean ====
section
/-! DEFINITION. Several instances (R235): the state of a system is the product of the instance states. NINST is the
argument n (D33; log 15). -/

namespace Sys2Proof.Machine

/-- n instances; instances share nothing but the constant ROM. -/
abbrev System (n : Nat) [NeZero n] := Vector State n

/-- One step of instance k; the others do not move. -/
def System.stepInstance {n : Nat} [NeZero n] (sys : System n) (k : Fin n) : Host.Outcome (System n) Fault Refusal :=
  match step sys[k] with
  | .next t => .next (sys.set k t)
  | .fault r => .fault r
  | .refused r => .refused r

/-- n instances right after reset. Each has its own index, so that the unspecified buffer bytes of two instances are
unrelated free values (R36, R37, R235; log 22). -/
def System.reset (n : Nat) [NeZero n] : System n := Vector.ofFn fun k => { State.reset with unitIndex := k.val }

end Sys2Proof.Machine
end

