-- ==== Sys2Proof/Safety.lean ====
section
/-! DEFINITION. What a safe state and a safe run are, in the terms claims use: the invariant that the spec's rules
give every reachable state, and the classes of instructions that whole-machine rules speak of. -/

namespace Sys2Proof.Machine

/-! ## Classes of instructions -/

/-- The command transactions, writes to CMD (R94). -/
def isCommand : Instr → Bool
  | .create | .configure | .encode | .destroy | .cmdIllegal _ => true
  | .rdStatus | .getErr | .getBr | .getSf => false
  | .wrCfgMtu _ | .wrCfgQuality _ | .wrCfgChmode _ | .wrCfgFormat _ | .wrCfgSfreq _ => false
  | .wrPcmLen _ | .wrOutCapacity _ => false
  | .rdCfgMtu | .rdCfgQuality | .rdCfgChmode | .rdCfgFormat | .rdCfgSfreq => false
  | .rdPcmLen | .rdOutCapacity | .rdBlockCountLo | .rdBlockCountHi => false
  | .rdConsumed | .rdFrameLen | .rdFrameCount => false
  | .ldpcm _ _ | .rdPcmBuf _ | .rdfrm _ | .rdfrmH1 _ | .rdfrmH2 _ => false
  | .busErr _ _ _ => false

/-- The read transactions (R66). -/
def isRead : Instr → Bool
  | .rdStatus | .getErr | .getBr | .getSf => true
  | .rdCfgMtu | .rdCfgQuality | .rdCfgChmode | .rdCfgFormat | .rdCfgSfreq => true
  | .rdPcmLen | .rdOutCapacity | .rdBlockCountLo | .rdBlockCountHi => true
  | .rdConsumed | .rdFrameLen | .rdFrameCount => true
  | .rdPcmBuf _ | .rdfrm _ | .rdfrmH1 _ | .rdfrmH2 _ => true
  | .create | .configure | .encode | .destroy | .cmdIllegal _ => false
  | .wrCfgMtu _ | .wrCfgQuality _ | .wrCfgChmode _ | .wrCfgFormat _ | .wrCfgSfreq _ => false
  | .wrPcmLen _ | .wrOutCapacity _ | .ldpcm _ _ => false
  | .busErr _ _ _ => false

/-! ## The bus as R66 and R67 write it, on numeric offsets

These two functions are the pseudocode of the two rules, without the decoder: statements hold the machine against
them. -/

/-- R66's read data at an offset; none is the error response. -/
def busReadValue (s : State) (a : Nat) : Option Word :=
  if a % 4 ≠ 0 then none
  else if a = 0x004 then some (statusWord s)
  else if a = 0x008 then some (lastErrorWord s)
  else if a = 0x00C then some s.cfgMtu
  else if a = 0x010 then some s.cfgQuality
  else if a = 0x014 then some s.cfgChmode
  else if a = 0x018 then some s.cfgFormat
  else if a = 0x01C then some s.cfgSfreq
  else if a = 0x020 then some s.pcmLen
  else if a = 0x024 then some s.outCapacity
  else if a = 0x028 then some (if isConfigured s.session then bitrate lep10 s.actQuality s.actSfreq else 0)
  else if a = 0x02C then some (if isConfigured s.session then s.actSfreq else 0)
  else if a = 0x030 then some (s.blockCount.extractLsb' 0 32)
  else if a = 0x034 then some (s.blockCount.extractLsb' 32 32)
  else if a = 0x038 then some s.consumed
  else if a = 0x03C then some s.frameLen
  else if a = 0x040 then some s.frameCount
  else if (0x200 ≤ a ∧ a ≤ 0x3FC) ∨ (0x400 ≤ a ∧ a ≤ 0x54C) then
    some (byteAt s (a + 3) ++ (byteAt s (a + 2) ++ (byteAt s (a + 1) ++ byteAt s a)))
  else none

/-- R67's effect of a write that is no command; none is the error response. -/
def busWriteEffect (s : State) (a : Nat) (v : Word) : Option State :=
  if a % 4 ≠ 0 then none
  else if a = 0x00C then some { s with cfgMtu := v }
  else if a = 0x010 then some { s with cfgQuality := v }
  else if a = 0x014 then some { s with cfgChmode := v }
  else if a = 0x018 then some { s with cfgFormat := v }
  else if a = 0x01C then some { s with cfgSfreq := v }
  else if a = 0x020 then some { s with pcmLen := v }
  else if a = 0x024 then some { s with outCapacity := v }
  else if 0x200 ≤ a ∧ a ≤ 0x3FC then
    some (storeBytes s a [v.extractLsb' 0 8, v.extractLsb' 8 8, v.extractLsb' 16 8, v.extractLsb' 24 8])
  else none

/-- R68's list of what gets the error response: request kind and offset. -/
def busErrorListed (we : Bool) (a : Nat) : Prop :=
  a % 4 ≠ 0 ∨ (we = false ∧ a = 0x000) ∨
  (we = true ∧ (a = 0x004 ∨ a = 0x008 ∨ (0x028 ≤ a ∧ a ≤ 0x040))) ∨
  (we = true ∧ 0x400 ≤ a ∧ a ≤ 0x54C) ∨
  (0x044 ≤ a ∧ a ≤ 0x1FF) ∨ (0x550 ≤ a ∧ a ≤ 0xFFF)

/-! ## The invariant -/

/-- The active configuration is one that CONFIGURE accepts (R26, R114). -/
def State.actLegal (s : State) : Prop :=
  (s.actQuality = 0 ∨ s.actQuality = 1 ∨ s.actQuality = 2) ∧
  (s.actChmode = 0 ∨ s.actChmode = 1 ∨ s.actChmode = 2) ∧
  (s.actFormat = 0 ∨ s.actFormat = 1 ∨ s.actFormat = 2 ∨ s.actFormat = 3) ∧
  (s.actSfreq = 44100 ∨ s.actSfreq = 48000 ∨ s.actSfreq = 88200 ∨ s.actSfreq = 96000)

/-- The staging registers hold a configuration that CONFIGURE accepts: ConfigValid() of R114 in the spec's numbers. -/
def State.stagingLegal (s : State) : Prop :=
  (s.cfgSfreq = 44100 ∨ s.cfgSfreq = 48000 ∨ s.cfgSfreq = 88200 ∨ s.cfgSfreq = 96000) ∧
  (s.cfgChmode = 0 ∨ s.cfgChmode = 1 ∨ s.cfgChmode = 2) ∧
  (s.cfgQuality = 0 ∨ s.cfgQuality = 1 ∨ s.cfgQuality = 2) ∧
  (s.cfgFormat = 0 ∨ s.cfgFormat = 1 ∨ s.cfgFormat = 2 ∨ s.cfgFormat = 3)

/-- A live state: Uninitialized, Ready or Encoding (R21). -/
def State.live (s : State) : Prop :=
  s.session = .uninitialized ∨ s.session = .ready ∨ s.session = .encoding

/-- A dead state: Void or Destroyed (R21). -/
def State.dead (s : State) : Prop :=
  s.session = .void ∨ s.session = .destroyed

/-- The session items have the values of SessionDefaults() but for the active configuration (R48). -/
def State.resultsZero (s : State) : Prop :=
  s.ovl0 = silence ∧ s.ovl1 = silence ∧ s.blockCount = 0 ∧
  s.consumed = 0 ∧ s.frameLen = 0 ∧ s.frameCount = 0

/-- The active configuration is zero (R48). -/
def State.actZero (s : State) : Prop :=
  s.actMtu = 0 ∧ s.actQuality = 0 ∧ s.actChmode = 0 ∧ s.actFormat = 0 ∧ s.actSfreq = 0

/-- Every entry of an overlap buffer is F32 of a 16-bit sample, +0.0 being F32(0) (R39). -/
def samplesOnly (v : Vector F32 128) : Prop :=
  ∀ j : Fin 128, ∃ x : BitVec 16, v[j] = f32OfSample x

/-- What holds of every reachable state. -/
structure Inv (s : State) : Prop where
  /-- The memory keeps its canonical form and lists only buffer bytes. -/
  mem_wf : s.mem.wf = true
  /-- LAST_ERROR is in {0, 2, 3} (R223). -/
  error_raised : s.lastError = .none ∨ s.lastError = .fatal ∨ s.lastError = .illegalParameter
  /-- Ready or Encoding: the active configuration is legal (R26). -/
  configured_legal : isConfigured s.session = true → s.actLegal
  /-- Not configured: every session item is at its default (R48, R110, R120, R49). -/
  unconfigured_default : isConfigured s.session = false → s.actZero ∧ s.resultsZero
  /-- Ready: no block encoded yet (R21, R113). -/
  ready_fresh : s.session = .ready → s.resultsZero
  /-- Encoding: the format is S16 (R142) and the result registers describe the last frame (R30, R31, R32). -/
  encoding_results : s.session = .encoding →
    s.actFormat = 0 ∧ s.frameCount = 1 ∧
    s.frameLen = BitVec.ofNat 32 (3 + payloadBytes lep10 s.actQuality) ∧
    s.consumed = BitVec.ofNat 32 (256 * nch lep10 s.actChmode)
  /-- OVL holds samples (R39). -/
  overlap_samples : samplesOnly s.ovl0 ∧ samplesOnly s.ovl1
  /-- In Mono OVL[1] stays +0.0 (R39, R148). -/
  mono_second_silent : s.actChmode = 2 → s.ovl1 = silence
  /-- An error response carries no data (R61, R68). -/
  error_no_data : ∀ r, s.response = some r → r.err = true → r.rdata = 0

/-! ## The silent frame and what two encodes share -/

/-- Every sample of the block that ENCODE would read is zero: PCM_BUF[0 .. 256*nch-1] is all zero. -/
def State.blockSilent (s : State) : Prop :=
  ∀ o, o < 256 * nch lep10 s.actChmode → pcmByte s o = 0

/-- ENCODE's checks of R141 pass in s, in the spec's numbers. -/
def State.admitsEncode (s : State) : Prop :=
  (s.session = .ready ∨ s.session = .encoding) ∧ s.actFormat = 0 ∧
  s.pcmLen = (if s.actChmode = 2 then 256 else 512) ∧
  3 + payloadBytes lep10 s.actQuality ≤ s.outCapacity.toNat

end Sys2Proof.Machine
end

