-- ==== Sys2Proof/WellFormed.lean ====
section
/-! DEFINITION. Which `Instr` terms the encoding admits. Two rows are catch-alls (R94): CMD.ILLEGAL is "every other
write to 0x000" and BUS.ERR is "everything no other row takes"; their operands must not name another row's words.
Every other constructor's operands are exactly its encoding's fields, so it is well-formed at every value. -/

namespace Sys2Proof

/-- The words of the four commands (R92). -/
def isCommandWord (v : Word) : Bool :=
  v == 1#32 || v == 2#32 || v == 3#32 || v == 4#32

/-- R62: whether a transaction of this kind is permitted at this offset. Every offset and kind not listed gets the
error response of R68. The first test is R64's alignment. -/
def permitted (we : Bool) (addr : Addr) : Bool :=
  let a := addr.toNat
  a % 4 == 0 &&
    (if we then
      a == 0x000 || (0x00C ≤ a && a ≤ 0x024) || (0x200 ≤ a && a ≤ 0x3FC)
    else
      (0x004 ≤ a && a ≤ 0x040) || (0x200 ≤ a && a ≤ 0x3FC) || (0x400 ≤ a && a ≤ 0x54C))

/-- The instruction is one the encoding admits. -/
def WellFormed : Instr → Bool
  | .cmdIllegal word => !isCommandWord word
  | .busErr we addr _ => !permitted we addr
  | .create | .configure | .encode | .destroy => true
  | .rdStatus | .getErr => true
  | .wrCfgMtu _ | .rdCfgMtu | .wrCfgQuality _ | .rdCfgQuality | .wrCfgChmode _ | .rdCfgChmode => true
  | .wrCfgFormat _ | .rdCfgFormat | .wrCfgSfreq _ | .rdCfgSfreq => true
  | .wrPcmLen _ | .rdPcmLen | .wrOutCapacity _ | .rdOutCapacity => true
  | .getBr | .getSf | .rdBlockCountLo | .rdBlockCountHi => true
  | .rdConsumed | .rdFrameLen | .rdFrameCount => true
  | .ldpcm _ _ | .rdPcmBuf _ | .rdfrm _ | .rdfrmH1 _ | .rdfrmH2 _ => true

end Sys2Proof
end

