-- ==== Sys2Proof/Certificates/Slice0/Obligations.lean ====
section
/-! DEFINITION. The statements for the provers, rule by rule. -/

open Sys2Proof Sys2Proof.Machine

/-! ## Encoding -/

/-- Nine words that the spec writes out decode to the instructions that R93, R94 and R68 make them: R66, R67, R68 and
R98 give six of them in their text, vector V16 of 95_test_vectors.md the words of CREATE and CMD.ILLEGAL, program P1 of
96_test_programs.md that of RDFRM.H2. -/
def Obligations.SpecWordsDecodeAsWritten : Prop :=
  decode 0x100000000001#45 = .create ∧
  decode 0x100000000103#45 = .cmdIllegal 0x103#32 ∧
  decode 0x101C0000AC44#45 = .wrCfgSfreq 44100#32 ∧
  decode 0x002800000000#45 = .getBr ∧
  decode 0x000400000000#45 = .rdStatus ∧
  decode 0x13FC80007FFF#45 = .ldpcm 127#7 0x80007FFF#32 ∧
  decode 0x054C00000000#45 = .rdfrmH2 3#2 ∧
  decode 0x100100000001#45 = .busErr true 0x001#12 1#32 ∧
  decode 0x140000000000#45 = .busErr true 0x400#12 0#32

/-- Decoding an encoded instruction gives it back, with every operand at every value the encoding admits. -/
def Obligations.DecodeOfEncodeIsTheInstruction : Prop :=
  ∀ i : Instr, WellFormed i = true → decode (encode i) = i

/-- Every one of the 2^45 transactions decodes to the instruction of the first row of the opcode table that it fits,
the rows tried in the order given (R94). -/
def Obligations.DecodeNamesTheFirstTableRow : Prop :=
  ∀ t : BitVec 45, tableMnemonic t = some (mnemonicOf (decode t))

/-- The decoder gives well-formed instructions only, and no bit of a write, nor of a read with the `wdata` 0 that the
assembler emits, is lost (R91). -/
def Obligations.DecodedTransactionReencodes : Prop :=
  ∀ t : BitVec 45, WellFormed (decode t) = true ∧
    ((t.getLsbD 44 = true ∨ t.extractLsb' 0 32 = 0#32) → encode (decode t) = t)

/-! ## The bus -/

/-- R68: exactly the listed requests get the error response, with read data 0, and change nothing; every other
request is answered without it. -/
def Obligations.BusErrorExactlyWhereListed : Prop :=
  ∀ (s : State) (we : Bool) (addr : Addr) (v : Word),
    (busErrorListed we addr.toNat →
      exec (decodeRequest ⟨we, addr, v⟩) s = .next { s with response := some ⟨0#32, true⟩ }) ∧
    (¬ busErrorListed we addr.toNat →
      ∃ t d, exec (decodeRequest ⟨we, addr, v⟩) s = .next t ∧ t.response = some ⟨d, false⟩)

/-- R66: a read of any offset answers what the rule's pseudocode gives there, or the error response, and changes no
state. -/
def Obligations.BusReadsFollowTheMap : Prop :=
  ∀ (s : State) (addr : Addr) (v : Word),
    exec (decodeRequest ⟨false, addr, v⟩) s =
      match busReadValue s addr.toNat with
      | some d => .next { s with response := some ⟨d, false⟩ }
      | none => .next { s with response := some ⟨0#32, true⟩ }

/-- R67: a write that is no command has the effect of the rule's pseudocode, or the error response; a write to CMD
executes its command and is answered OK whether the command succeeded or failed. -/
def Obligations.BusWritesFollowTheMap : Prop :=
  ∀ (s : State) (addr : Addr) (v : Word),
    (addr ≠ 0#12 →
      exec (decodeRequest ⟨true, addr, v⟩) s =
        match busWriteEffect s addr.toNat v with
        | some t => .next { t with response := some ⟨0#32, false⟩ }
        | none => .next { s with response := some ⟨0#32, true⟩ }) ∧
    (addr = 0#12 → exec (decodeRequest ⟨true, addr, v⟩) s = exec (decodeCommand v) s ∧
      ∃ t, exec (decodeRequest ⟨true, addr, v⟩) s = .next t ∧ t.response = some ⟨0#32, false⟩)

/-- R93: the word written to CMD is compared on all 32 bits; in a dead state everything but CREATE is Fatal. -/
def Obligations.CommandWordsAreTestedInOrder : Prop :=
  ∀ (s : State) (v : Word),
    (v = 1#32 → exec (decodeRequest ⟨true, 0#12, v⟩) s = exec .create s) ∧
    (v ≠ 1#32 → s.dead → exec (decodeRequest ⟨true, 0#12, v⟩) s =
      .next { s with lastError := .fatal, response := some ⟨0#32, false⟩ }) ∧
    (¬ s.dead → v = 2#32 → exec (decodeRequest ⟨true, 0#12, v⟩) s = exec .configure s) ∧
    (¬ s.dead → v = 3#32 → exec (decodeRequest ⟨true, 0#12, v⟩) s = exec .encode s) ∧
    (¬ s.dead → v = 4#32 → exec (decodeRequest ⟨true, 0#12, v⟩) s = exec .destroy s) ∧
    (¬ s.dead → v ≠ 1#32 → v ≠ 2#32 → v ≠ 3#32 → v ≠ 4#32 → exec (decodeRequest ⟨true, 0#12, v⟩) s =
      .next { s with lastError := .illegalParameter, response := some ⟨0#32, false⟩ })

/-! ## Steps -/

/-- A step takes the host's next request and runs the instruction it decodes to, on the state in which that request is
taken (R10, R70); the interface's word is such a request. That the host's coming requests stand in the list `inputs`,
of which a step takes the head and leaves the rest, is the model's choice (log 1), and so is what withFetchWord does
with a word (log 1, log 12). -/
def Obligations.StepRunsTheDecodedRequest : Prop :=
  (∀ (s : State) (r : Request) (rest : List PortEvent) (i : Instr),
    s.inputs = .request r :: rest → decodeRequest r = i → step s = exec i { s with inputs := rest }) ∧
  (∀ (s : State) (t : BitVec 45), step (s.withFetchWord 48 t.toNat) = exec (decode t) s)

/-- With no request on the port nothing changes and nothing is answered; hardware reset, whatever request it cuts short,
gives the reset state and no response (R250, R252). That the time between two transactions, in which R22 and R237 let
nothing change, is a step is the model's inference (log 2), and that the response is a field which is then none its
choice (log 3). Its choices too: the host's coming actions stay, both buffers are unwritten again and take fresh free
contents, the block keeps its index (log 1, 4, 5, 6, 22). -/
def Obligations.StepWithoutRequest : Prop :=
  (∀ s : State, s.inputs = [] → step s = .next { s with response := none }) ∧
  (∀ (s : State) (cut : Option Request) (rest : List PortEvent), s.inputs = .reset cut :: rest →
    step s = .next { State.reset with inputs := rest, resets := s.resets + 1, unitIndex := s.unitIndex })

/-- R49: after hardware reset, which is the state every run starts in and what a step on a reset gives, STATE is Void,
LAST_ERROR None, every session item has its SessionDefaults value, the seven port registers are 0, and the nine reads
the rule names answer 0. Of the two buffers the rule says "unspecified": nothing is stated of them. -/
def Obligations.ResetStateAsStated : Prop :=
  ∀ t : State,
    (t = State.reset ∨ ∃ s cut rest, s.inputs = .reset cut :: rest ∧ step s = .next t) →
    t.session = .void ∧ t.lastError = .none ∧
    t.actMtu = 0 ∧ t.actQuality = 0 ∧ t.actChmode = 0 ∧ t.actFormat = 0 ∧ t.actSfreq = 0 ∧
    (∀ j : Fin 128, t.ovl0[j] = 0#32 ∧ t.ovl1[j] = 0#32) ∧
    t.blockCount = 0 ∧ t.consumed = 0 ∧ t.frameLen = 0 ∧ t.frameCount = 0 ∧
    t.cfgMtu = 0 ∧ t.cfgQuality = 0 ∧ t.cfgChmode = 0 ∧ t.cfgFormat = 0 ∧ t.cfgSfreq = 0 ∧
    t.pcmLen = 0 ∧ t.outCapacity = 0 ∧
    (∀ i ∈ [Instr.rdStatus, .getErr, .getBr, .getSf, .rdBlockCountLo, .rdBlockCountHi, .rdConsumed, .rdFrameLen,
      .rdFrameCount], exec i t = .next { t with response := some ⟨0#32, false⟩ })

/-- The reset state meets the invariant. -/
def Obligations.ResetMeetsInvariant : Prop := Inv State.reset

/-- Every step from a state that meets the invariant gives a state that meets it. -/
def Obligations.StepKeepsInvariant : Prop :=
  ∀ s t : State, Inv s → step s = .next t → Inv t

/-- R238: the step function is total and never stuck: every state has a next state, whatever request is on the port. -/
def Obligations.StepAlwaysAnswersNext : Prop :=
  ∀ s : State, ∃ t, step s = .next t

/-- The memory's canonical form is kept by every step, from every state that has it. The form is the model's (log 4), and
that an ENCODE with an illegal active quality stays inside FRAME_BUF rests on the model's bound 333 (log 9). -/
def Obligations.MemoryFormIsKept : Prop :=
  ∀ s t : State, s.mem.wf = true → step s = .next t → t.mem.wf = true

/-! ## Reads, queries and register writes -/

/-- R124 and R123: a read of offset 0x004 answers the number of STATE, a read of offset 0x008 the number of LAST_ERROR;
nothing else changes. -/
def Obligations.StatusAndErrorReads : Prop :=
  (∀ v : Word, decodeRequest ⟨false, 0x004#12, v⟩ = .rdStatus ∧ decodeRequest ⟨false, 0x008#12, v⟩ = .getErr) ∧
  ∀ s : State, ∃ d e : Word,
    exec .rdStatus s = .next { s with response := some ⟨d, false⟩ } ∧
    (s.session = .void → d = 0) ∧ (s.session = .uninitialized → d = 1) ∧ (s.session = .ready → d = 2) ∧
    (s.session = .encoding → d = 3) ∧ (s.session = .destroyed → d = 4) ∧
    exec .getErr s = .next { s with response := some ⟨e, false⟩ } ∧
    (s.lastError = .none → e = 0) ∧ (s.lastError = .nonFatal → e = 1) ∧ (s.lastError = .fatal → e = 2) ∧
    (s.lastError = .illegalParameter → e = 3) ∧ (s.lastError = .illegalVersion → e = 4)

/-- R66: each register read answers its register, BLOCK_COUNT in two halves, and changes nothing. -/
def Obligations.RegisterReadsAnswerTheRegister : Prop :=
  ∀ s : State,
    exec .rdCfgMtu s = .next { s with response := some ⟨s.cfgMtu, false⟩ } ∧
    exec .rdCfgQuality s = .next { s with response := some ⟨s.cfgQuality, false⟩ } ∧
    exec .rdCfgChmode s = .next { s with response := some ⟨s.cfgChmode, false⟩ } ∧
    exec .rdCfgFormat s = .next { s with response := some ⟨s.cfgFormat, false⟩ } ∧
    exec .rdCfgSfreq s = .next { s with response := some ⟨s.cfgSfreq, false⟩ } ∧
    exec .rdPcmLen s = .next { s with response := some ⟨s.pcmLen, false⟩ } ∧
    exec .rdOutCapacity s = .next { s with response := some ⟨s.outCapacity, false⟩ } ∧
    exec .rdConsumed s = .next { s with response := some ⟨s.consumed, false⟩ } ∧
    exec .rdFrameLen s = .next { s with response := some ⟨s.frameLen, false⟩ } ∧
    exec .rdFrameCount s = .next { s with response := some ⟨s.frameCount, false⟩ } ∧
    ∃ lo hi : Word, s.blockCount = hi ++ lo ∧
      exec .rdBlockCountLo s = .next { s with response := some ⟨lo, false⟩ } ∧
      exec .rdBlockCountHi s = .next { s with response := some ⟨hi, false⟩ }

/-- R67: each register write stores all 32 bits in its register and changes nothing else, in every state. -/
def Obligations.RegisterWritesStoreTheValue : Prop :=
  ∀ (s : State) (v : Word),
    exec (.wrCfgMtu v) s = .next { s with cfgMtu := v, response := some ⟨0#32, false⟩ } ∧
    exec (.wrCfgQuality v) s = .next { s with cfgQuality := v, response := some ⟨0#32, false⟩ } ∧
    exec (.wrCfgChmode v) s = .next { s with cfgChmode := v, response := some ⟨0#32, false⟩ } ∧
    exec (.wrCfgFormat v) s = .next { s with cfgFormat := v, response := some ⟨0#32, false⟩ } ∧
    exec (.wrCfgSfreq v) s = .next { s with cfgSfreq := v, response := some ⟨0#32, false⟩ } ∧
    exec (.wrPcmLen v) s = .next { s with pcmLen := v, response := some ⟨0#32, false⟩ } ∧
    exec (.wrOutCapacity v) s = .next { s with outCapacity := v, response := some ⟨0#32, false⟩ }

/-- R162 and R163: GETBR, a read of offset 0x028, answers 0 unless configured, else (payloadBytes * 8 * f) div 128, which is the rule's table
of twelve values; nothing else changes. -/
def Obligations.BitrateQueryAnswersTheTable : Prop :=
  (∀ v : Word, decodeRequest ⟨false, 0x028#12, v⟩ = .getBr) ∧
  ∀ s : State, ∃ d : Word,
    exec .getBr s = .next { s with response := some ⟨d, false⟩ } ∧
    (s.session ≠ .ready → s.session ≠ .encoding → d = 0) ∧
    (s.session = .ready ∨ s.session = .encoding →
      ∀ row ∈ [(0, 330, 44100, 909562), (0, 330, 48000, 990000), (0, 330, 88200, 1819125), (0, 330, 96000, 1980000),
          (1, 220, 44100, 606375), (1, 220, 48000, 660000), (1, 220, 88200, 1212750), (1, 220, 96000, 1320000),
          (2, 110, 44100, 303187), (2, 110, 48000, 330000), (2, 110, 88200, 606375), (2, 110, 96000, 660000)],
        s.actQuality.toNat = row.1 → s.actSfreq.toNat = row.2.2.1 →
          d.toNat = row.2.2.2 ∧ d.toNat = row.2.1 * 8 * row.2.2.1 / 128)

/-- R122: GETSF, a read of offset 0x02C, answers ACT_SFREQ if STATE is Ready or Encoding, else 0; nothing else
changes. -/
def Obligations.SamplingFrequencyQuery : Prop :=
  (∀ v : Word, decodeRequest ⟨false, 0x02C#12, v⟩ = .getSf) ∧
  ∀ s : State, ∃ d : Word,
    exec .getSf s = .next { s with response := some ⟨d, false⟩ } ∧
    (s.session = .ready ∨ s.session = .encoding → d = s.actSfreq) ∧
    (s.session ≠ .ready → s.session ≠ .encoding → d = 0)

/-- R34: in every state that meets the invariant the gated read of SFREQ is the stored ACT_SFREQ. -/
def Obligations.SfreqReadsTheStoredValue : Prop :=
  ∀ s : State, Inv s → exec .getSf s = .next { s with response := some ⟨s.actSfreq, false⟩ }

/-- R66: every read changes nothing, and the same read again answers the same. -/
def Obligations.ReadsChangeNothing : Prop :=
  ∀ (i : Instr) (s : State), isRead i = true →
    ∃ d : Word, exec i s = .next { s with response := some ⟨d, false⟩ } ∧
      exec i { s with response := some ⟨d, false⟩ } = .next { s with response := some ⟨d, false⟩ }

/-! ## The buffers -/

/-- R67, R63: LDPCM w puts the four bytes of its word at PCM_BUF[4w .. 4w+3], least significant first; every other
byte of memory and every other item is unchanged. -/
def Obligations.LdpcmStoresOneWordLittleEndian : Prop :=
  ∀ (s : State) (w : BitVec 7) (v : Word), ∃ t,
    exec (.ldpcm w v) s = .next t ∧
    t = { s with mem := t.mem, response := some ⟨0#32, false⟩ } ∧
    pcmByte t (4 * w.toNat) = v.extractLsb' 0 8 ∧ pcmByte t (4 * w.toNat + 1) = v.extractLsb' 8 8 ∧
    pcmByte t (4 * w.toNat + 2) = v.extractLsb' 16 8 ∧ pcmByte t (4 * w.toNat + 3) = v.extractLsb' 24 8 ∧
    pcmWordOffset w = 0x200 + 4 * w.toNat ∧
    (∀ a, (a < pcmWordOffset w ∨ pcmWordOffset w + 4 ≤ a) → byteAt t a = byteAt s a)

/-- R71: a word written to PCM_BUF is what the next read of it answers, and a read of another word is not disturbed. -/
def Obligations.LdpcmThenReadAnswersTheWord : Prop :=
  ∀ (s t : State) (w x : BitVec 7) (v : Word), exec (.ldpcm w v) s = .next t →
    exec (.rdPcmBuf w) t = .next { t with response := some ⟨v, false⟩ } ∧
    (x ≠ w → ∀ d, exec (.rdPcmBuf x) s = .next { s with response := some ⟨d, false⟩ } →
      exec (.rdPcmBuf x) t = .next { t with response := some ⟨d, false⟩ })

/-- R66, R94: the buffer reads answer four bytes, the lowest offset in bits 7..0: PCM_BUF from 4w, FRAME_BUF from 4w,
from 4(64 + w_low) and from 4(80 + w_low); nothing else changes. -/
def Obligations.BufferReadsAnswerFourBytes : Prop :=
  ∀ (s : State) (w : BitVec 7) (f : BitVec 6) (g : BitVec 4) (h : BitVec 2),
    exec (.rdPcmBuf w) s = .next { s with response := some ⟨pcmByte s (4 * w.toNat + 3) ++
      (pcmByte s (4 * w.toNat + 2) ++ (pcmByte s (4 * w.toNat + 1) ++ pcmByte s (4 * w.toNat))), false⟩ } ∧
    exec (.rdfrm f) s = .next { s with response := some ⟨frameByte s (4 * f.toNat + 3) ++
      (frameByte s (4 * f.toNat + 2) ++ (frameByte s (4 * f.toNat + 1) ++ frameByte s (4 * f.toNat))), false⟩ } ∧
    exec (.rdfrmH1 g) s = .next { s with response := some ⟨frameByte s (256 + 4 * g.toNat + 3) ++
      (frameByte s (256 + 4 * g.toNat + 2) ++ (frameByte s (256 + 4 * g.toNat + 1) ++
        frameByte s (256 + 4 * g.toNat))), false⟩ } ∧
    exec (.rdfrmH2 h) s = .next { s with response := some ⟨frameByte s (320 + 4 * h.toNat + 3) ++
      (frameByte s (320 + 4 * h.toNat + 2) ++ (frameByte s (320 + 4 * h.toNat + 1) ++
        frameByte s (320 + 4 * h.toNat))), false⟩ }

/-- R68: BUS.ERR answers the error response and changes nothing, whatever its operands. That this holds of operands that
name a permitted request, which no transaction decodes to, is the model's choice (log 20). -/
def Obligations.BusErrAnswersErrorOnly : Prop :=
  ∀ (s : State) (we : Bool) (addr : Addr) (v : Word),
    exec (.busErr we addr v) s = .next { s with response := some ⟨0#32, true⟩ }

/-- R36, R37: PCM_BUF is written by LDPCM only, in its own word, and FRAME_BUF by a successful ENCODE only, in bytes
0 .. 2+P. -/
def Obligations.BuffersWrittenOnlyByTheirInstruction : Prop :=
  ∀ (i : Instr) (s t : State), exec i s = .next t →
    (∀ o, o < 512 → pcmByte t o ≠ pcmByte s o → ∃ w v, i = .ldpcm w v ∧ 4 * w.toNat ≤ o ∧ o < 4 * w.toNat + 4) ∧
    (∀ o, o < 336 → frameByte t o ≠ frameByte s o →
      i = .encode ∧ s.admitsEncode ∧ o < 3 + payloadBytes lep10 s.actQuality)

/-! ## Session commands -/

/-- R110: CREATE, a write of 1 to CMD, in every state performs SessionDefaults(), makes STATE Uninitialized and LAST_ERROR None, and
changes no port register and no buffer. -/
def Obligations.CreateBeginsANewSession : Prop :=
  decodeRequest ⟨true, 0x000#12, 0x00000001#32⟩ = .create ∧
  ∀ s : State, exec .create s = .next
    { s with
      session := .uninitialized, lastError := .none,
      actMtu := 0, actQuality := 0, actChmode := 0, actFormat := 0, actSfreq := 0,
      ovl0 := Vector.replicate 128 0#32, ovl1 := Vector.replicate 128 0#32,
      blockCount := 0, consumed := 0, frameLen := 0, frameCount := 0,
      response := some ⟨0#32, false⟩ }

/-- R120: DESTROY, a write of 4 to CMD, in a live state performs SessionDefaults(), makes STATE Destroyed and LAST_ERROR
None, and changes no port register and no buffer; in a dead state it raises Fatal. -/
def Obligations.DestroyReleasesALiveSession : Prop :=
  decodeRequest ⟨true, 0x000#12, 0x00000004#32⟩ = .destroy ∧
  ∀ s : State,
    (s.live → exec .destroy s = .next
      { s with
        session := .destroyed, lastError := .none,
        actMtu := 0, actQuality := 0, actChmode := 0, actFormat := 0, actSfreq := 0,
        ovl0 := Vector.replicate 128 0#32, ovl1 := Vector.replicate 128 0#32,
        blockCount := 0, consumed := 0, frameLen := 0, frameCount := 0,
        response := some ⟨0#32, false⟩ }) ∧
    (s.dead → exec .destroy s = .next { s with lastError := .fatal, response := some ⟨0#32, false⟩ })

/-- R125: any command other than CREATE, in Void or Destroyed, does exactly LAST_ERROR <- Fatal and nothing else. -/
def Obligations.DeadStateCommandsRaiseFatal : Prop :=
  ∀ (s : State) (i : Instr), s.dead → isCommand i = true → i ≠ .create →
    exec i s = .next { s with lastError := .fatal, response := some ⟨0#32, false⟩ }

/-- R126: CMD.ILLEGAL, a write to CMD of any word other than 1, 2, 3, 4, in a live state does exactly
LAST_ERROR <- IllegalParameter and nothing else. -/
def Obligations.IllegalCommandWordInALiveState : Prop :=
  ∀ v : Word,
    (v ≠ 1#32 → v ≠ 2#32 → v ≠ 3#32 → v ≠ 4#32 → decodeRequest ⟨true, 0x000#12, v⟩ = .cmdIllegal v) ∧
    ∀ s : State, s.live →
      exec (.cmdIllegal v) s = .next { s with lastError := .illegalParameter, response := some ⟨0#32, false⟩ }

/-- R113, R115: CONFIGURE in Uninitialized with a valid staging configuration copies all five staging registers,
zeroes OVL and BLOCK_COUNT, makes STATE Ready and LAST_ERROR None, and changes nothing else. -/
def Obligations.ConfigureStoresTheConfiguration : Prop :=
  ∀ s : State, s.session = .uninitialized → s.stagingLegal → exec .configure s = .next
    { s with
      session := .ready, lastError := .none,
      actMtu := s.cfgMtu, actQuality := s.cfgQuality, actChmode := s.cfgChmode,
      actFormat := s.cfgFormat, actSfreq := s.cfgSfreq,
      ovl0 := Vector.replicate 128 0#32, ovl1 := Vector.replicate 128 0#32, blockCount := 0,
      response := some ⟨0#32, false⟩ }

/-- R113, R114, R116: in a live state every other CONFIGURE raises IllegalParameter and changes nothing else. -/
def Obligations.ConfigureRefusesEverythingElse : Prop :=
  ∀ s : State, s.live → (s.session ≠ .uninitialized ∨ ¬ s.stagingLegal) →
    exec .configure s = .next { s with lastError := .illegalParameter, response := some ⟨0#32, false⟩ }

/-- R128: next STATE and LAST_ERROR for every state and command. -/
def Obligations.SessionStateMachineTable : Prop :=
  ∀ s : State,
    (∃ t, exec .create s = .next t ∧ t.session = .uninitialized ∧ t.lastError = .none) ∧
    (s.dead → ∀ i, isCommand i = true → i ≠ .create →
      ∃ t, exec i s = .next t ∧ t.session = s.session ∧ t.lastError = .fatal) ∧
    (s.live →
      (∃ t, exec .destroy s = .next t ∧ t.session = .destroyed ∧ t.lastError = .none) ∧
      (∀ v, ∃ t, exec (.cmdIllegal v) s = .next t ∧ t.session = s.session ∧ t.lastError = .illegalParameter) ∧
      (∃ t, exec .configure s = .next t ∧
        (s.session = .uninitialized ∧ s.stagingLegal → t.session = .ready ∧ t.lastError = .none) ∧
        (¬ (s.session = .uninitialized ∧ s.stagingLegal) →
          t.session = s.session ∧ t.lastError = .illegalParameter)) ∧
      (∃ t, exec .encode s = .next t ∧
        (s.admitsEncode → t.session = .encoding ∧ t.lastError = .none) ∧
        (¬ s.admitsEncode → t.session = s.session ∧ t.lastError = .illegalParameter))) ∧
    (∀ i t, isCommand i = false → exec i s = .next t → t.session = s.session ∧ t.lastError = s.lastError)

/-- R129: a command that writes a non-zero LAST_ERROR changes nothing but LAST_ERROR. -/
def Obligations.FailedCommandChangesOnlyLastError : Prop :=
  ∀ (i : Instr) (s t : State), isCommand i = true → exec i s = .next t → t.lastError ≠ .none →
    t = { s with lastError := t.lastError, response := some ⟨0#32, false⟩ }

/-- R24, R226, R223: LAST_ERROR is written by commands only, and every command writes one of 0, 2, 3. -/
def Obligations.LastErrorIsWrittenByCommandsOnly : Prop :=
  ∀ (i : Instr) (s t : State), exec i s = .next t →
    (isCommand i = false → t.lastError = s.lastError) ∧
    (isCommand i = true → t.lastError = .none ∨ t.lastError = .fatal ∨ t.lastError = .illegalParameter)

/-- R25, R28, R29: the block never writes a port register: each changes by its own write transaction only. -/
def Obligations.PortRegistersAreTheHosts : Prop :=
  ∀ (i : Instr) (s t : State), exec i s = .next t →
    (t.cfgMtu ≠ s.cfgMtu → i = .wrCfgMtu t.cfgMtu) ∧
    (t.cfgQuality ≠ s.cfgQuality → i = .wrCfgQuality t.cfgQuality) ∧
    (t.cfgChmode ≠ s.cfgChmode → i = .wrCfgChmode t.cfgChmode) ∧
    (t.cfgFormat ≠ s.cfgFormat → i = .wrCfgFormat t.cfgFormat) ∧
    (t.cfgSfreq ≠ s.cfgSfreq → i = .wrCfgSfreq t.cfgSfreq) ∧
    (t.pcmLen ≠ s.pcmLen → i = .wrPcmLen t.pcmLen) ∧
    (t.outCapacity ≠ s.outCapacity → i = .wrOutCapacity t.outCapacity)

/-- R26: the active configuration is written in two ways only: a successful CONFIGURE copies the staging registers,
and the SessionDefaults() of CREATE and DESTROY zeroes it. -/
def Obligations.ActiveConfigurationIsImmutable : Prop :=
  ∀ (i : Instr) (s t : State), exec i s = .next t →
    (t.actMtu = s.actMtu ∧ t.actQuality = s.actQuality ∧ t.actChmode = s.actChmode ∧
      t.actFormat = s.actFormat ∧ t.actSfreq = s.actSfreq) ∨
    (i = .configure ∧ s.session = .uninitialized ∧ s.stagingLegal ∧ t.actMtu = s.cfgMtu ∧
      t.actQuality = s.cfgQuality ∧ t.actChmode = s.cfgChmode ∧ t.actFormat = s.cfgFormat ∧
      t.actSfreq = s.cfgSfreq) ∨
    ((i = .create ∨ (i = .destroy ∧ s.live)) ∧ t.actZero)

/-- R35, R151: BLOCK_COUNT adds 1 modulo 2^64 at a successful ENCODE, is set to 0 by SessionDefaults() and a successful
CONFIGURE, and nothing else writes it. -/
def Obligations.BlockCounterCountsSuccessfulEncodes : Prop :=
  ∀ (i : Instr) (s t : State), exec i s = .next t →
    (i = .encode → s.admitsEncode → t.blockCount.toNat = (s.blockCount.toNat + 1) % 2 ^ 64) ∧
    (i = .create ∨ (i = .destroy ∧ s.live) ∨ (i = .configure ∧ s.session = .uninitialized ∧ s.stagingLegal) →
      t.blockCount = 0) ∧
    (¬ (i = .encode ∧ s.admitsEncode) → i ≠ .create → ¬ (i = .destroy ∧ s.live) →
      ¬ (i = .configure ∧ s.session = .uninitialized ∧ s.stagingLegal) → t.blockCount = s.blockCount)

/-! ## ENCODE -/

/-- R141, R142, R144, R146: in a live state an ENCODE that any of the four checks turns away raises IllegalParameter
and changes nothing else. -/
def Obligations.EncodeRefusedByAnyCheck : Prop :=
  ∀ s : State, s.live →
    (s.session = .uninitialized ∨ s.actFormat ≠ 0 ∨
      (s.actChmode = 2 ∧ s.pcmLen ≠ 256) ∨ (s.actChmode ≠ 2 ∧ s.pcmLen ≠ 512) ∨
      s.outCapacity.toNat < 3 + payloadBytes lep10 s.actQuality) →
    exec .encode s = .next { s with lastError := .illegalParameter, response := some ⟨0#32, false⟩ }

/-- R140, R141: an admitted ENCODE completes: STATE Encoding, LAST_ERROR None, the results of R30 to R32, the counter,
OVL of the active channels the de-interleaved block (R75, R147, R148), OVL[1] untouched in Mono; every other item, and
every byte outside FRAME_BUF[0 .. 2+P], is unchanged (R205). -/
def Obligations.EncodeCommitsResultsAndOverlap : Prop :=
  ∀ s : State, s.admitsEncode → ∃ t, exec .encode s = .next t ∧
    t.session = .encoding ∧ t.lastError = .none ∧ t.response = some ⟨0#32, false⟩ ∧
    t.blockCount = s.blockCount + 1 ∧ t.frameCount = 1 ∧
    (s.actQuality = 0 → t.frameLen = 333) ∧ (s.actQuality = 1 → t.frameLen = 223) ∧
    (s.actQuality = 2 → t.frameLen = 113) ∧
    (s.actChmode = 2 → t.consumed = 256 ∧ t.ovl1 = s.ovl1 ∧
      ∀ j : Fin 128, t.ovl0[j] = f32OfSample (pcmByte s (2 * j + 1) ++ pcmByte s (2 * j))) ∧
    (s.actChmode ≠ 2 → t.consumed = 512 ∧
      ∀ j : Fin 128, t.ovl0[j] = f32OfSample (pcmByte s (4 * j + 1) ++ pcmByte s (4 * j)) ∧
        t.ovl1[j] = f32OfSample (pcmByte s (4 * j + 3) ++ pcmByte s (4 * j + 2))) ∧
    (∀ a, (a < frameBase ∨ frameBase + (3 + payloadBytes lep10 s.actQuality) ≤ a) → byteAt t a = byteAt s a) ∧
    t = { s with
      session := t.session, lastError := t.lastError, response := t.response, blockCount := t.blockCount,
      frameCount := t.frameCount, frameLen := t.frameLen, consumed := t.consumed, ovl0 := t.ovl0, ovl1 := t.ovl1,
      mem := t.mem }

/-- R200 to R205: the frame an admitted ENCODE of a legal configuration leaves in FRAME_BUF: sync, header
`(sfIdx << 5) | channelMode` with its three fields, P mod 256, then Q of the interleaved coefficients, then pad bytes 0;
FRAME_LEN is 3 + P, at most 333, and every byte outside those of the frame is unchanged. -/
def Obligations.EncodeWritesTheFrame : Prop :=
  ∀ s t : State, s.admitsEncode → s.actLegal → exec .encode s = .next t →
    ∃ p n k : Nat,
      ((s.actQuality = 0 ∧ p = 330) ∨ (s.actQuality = 1 ∧ p = 220) ∨ (s.actQuality = 2 ∧ p = 110)) ∧
      ((s.actChmode = 2 ∧ n = 1) ∨ (s.actChmode ≠ 2 ∧ n = 2)) ∧
      ((s.actSfreq = 44100 ∧ k = 0) ∨ (s.actSfreq = 48000 ∧ k = 1) ∨ (s.actSfreq = 88200 ∧ k = 2) ∨
        (s.actSfreq = 96000 ∧ k = 3)) ∧
      frameByte t 0 = 0xAA#8 ∧ (frameByte t 1).toNat = 32 * k + s.actChmode.toNat ∧
      (frameByte t 2).toNat = p % 256 ∧
      (∀ i, i < p → i < 128 * n → frameByte t (3 + i) = quantize (coefficient lep10 s n (i % n) (i / n))) ∧
      (∀ i, i < p → 128 * n ≤ i → frameByte t (3 + i) = 0#8) ∧
      ((frameByte t 1).extractLsb' 5 3).toNat = k ∧ (frameByte t 1).extractLsb' 3 2 = 0#2 ∧
      ((frameByte t 1).extractLsb' 0 3).toNat = s.actChmode.toNat ∧
      t.frameLen.toNat = 3 + p ∧ 3 + p ≤ 333 ∧ 333 ≤ frameSize ∧
      (∀ a, (a < frameBase ∨ frameBase + (3 + p) ≤ a) → byteAt t a = byteAt s a)

/-- R145, R148, R149: each sample of a successfully encoded block is the second half of its own analysis window and
the first half of the next one. -/
def Obligations.SampleIsInTwoConsecutiveWindows : Prop :=
  ∀ (s t : State) (n c j : Nat), s.admitsEncode → exec .encode s = .next t →
    n = nch lep10 s.actChmode → c < n → j < 128 →
      nch lep10 t.actChmode = n ∧
      analysisInput lep10 s n c (128 + j) = f32OfSample (pcmSample s n c j) ∧
      analysisInput lep10 t n c j = f32OfSample (pcmSample s n c j)

/-- R206: with OVL and the block all zero, the frame is sync, header, length, then min(P, 128*nch) bytes 0x80, then
pad bytes 0x00. -/
def Obligations.SilentBlockGivesTheSilentFrame : Prop :=
  ∀ s t : State, s.admitsEncode → s.blockSilent →
    (∀ j : Fin 128, s.ovl0[j] = 0#32) → (s.actChmode ≠ 2 → ∀ j : Fin 128, s.ovl1[j] = 0#32) →
    exec .encode s = .next t →
      frameByte t 0 = 0xAA#8 ∧ frameByte t 1 = headerByte s.actSfreq s.actChmode ∧
      frameByte t 2 = lengthByte (payloadBytes lep10 s.actQuality) ∧
      ∀ i, i < payloadBytes lep10 s.actQuality →
        frameByte t (3 + i) = if i < 128 * nch lep10 s.actChmode then 0x80#8 else 0x00#8

/-- R150: of two consecutive all-zero blocks the second one has all-(+0.0) coefficients whatever OVL held before the
first, and its frame is the frame of a zero block encoded on an all-zero OVL with the same configuration. -/
def Obligations.SilenceDecaysInOneBlock : Prop :=
  ∀ s t u v w : State, s.admitsEncode → s.blockSilent → exec .encode s = .next t → exec .encode t = .next u →
    v.admitsEncode → v.blockSilent → v.ovl0 = silence → v.ovl1 = silence →
    v.actQuality = s.actQuality → v.actChmode = s.actChmode → v.actSfreq = s.actSfreq →
    exec .encode v = .next w →
      u.blockCount = s.blockCount + 2 ∧
      (∀ c k, c < nch lep10 s.actChmode → k < 128 →
        coefficient lep10 t (nch lep10 s.actChmode) c k = 0#32) ∧
      ∀ b, b < 3 + payloadBytes lep10 s.actQuality → frameByte u b = frameByte w b

/-- R149: the frame of a block is a function of the active configuration, that block and the block before it: two
sessions of one configuration that encode equal blocks twice in a row give equal second frames, whatever OVL held
before the first. The host may do anything between the two ENCODEs that leaves session and overlap as they are. -/
def Obligations.FrameDependsOnTwoBlocksOnly : Prop :=
  ∀ s₁ s₂ t₁ t₂ u₁ u₂ w₁ w₂ : State,
    s₁.admitsEncode → s₂.admitsEncode → exec .encode s₁ = .next t₁ → exec .encode s₂ = .next t₂ →
    s₁.actQuality = s₂.actQuality → s₁.actChmode = s₂.actChmode → s₁.actSfreq = s₂.actSfreq →
    (∀ o, o < 256 * nch lep10 s₁.actChmode → pcmByte s₁ o = pcmByte s₂ o) →
    (u₁.actQuality = t₁.actQuality ∧ u₁.actChmode = t₁.actChmode ∧ u₁.actSfreq = t₁.actSfreq ∧
      u₁.ovl0 = t₁.ovl0 ∧ u₁.ovl1 = t₁.ovl1) →
    (u₂.actQuality = t₂.actQuality ∧ u₂.actChmode = t₂.actChmode ∧ u₂.actSfreq = t₂.actSfreq ∧
      u₂.ovl0 = t₂.ovl0 ∧ u₂.ovl1 = t₂.ovl1) →
    (∀ o, o < 256 * nch lep10 s₁.actChmode → pcmByte u₁ o = pcmByte u₂ o) →
    u₁.admitsEncode → u₂.admitsEncode → exec .encode u₁ = .next w₁ → exec .encode u₂ = .next w₂ →
      ∀ b, b < 3 + payloadBytes lep10 s₁.actQuality → frameByte w₁ b = frameByte w₂ b

/-- R153: the frame of a successful ENCODE is a function of ACT_QUALITY, ACT_CHMODE, ACT_SFREQ, OVL and
PCM_BUF[0 .. 256*nch-1] alone. -/
def Obligations.FrameDependsOnSessionAndBlockOnly : Prop :=
  ∀ s₁ s₂ t₁ t₂ : State, s₁.admitsEncode → s₂.admitsEncode →
    s₁.actQuality = s₂.actQuality → s₁.actChmode = s₂.actChmode → s₁.actSfreq = s₂.actSfreq →
    s₁.ovl0 = s₂.ovl0 → s₁.ovl1 = s₂.ovl1 →
    (∀ o, o < 256 * nch lep10 s₁.actChmode → pcmByte s₁ o = pcmByte s₂ o) →
    exec .encode s₁ = .next t₁ → exec .encode s₂ = .next t₂ →
      ∀ b, b < 3 + payloadBytes lep10 s₁.actQuality → frameByte t₁ b = frameByte t₂ b

/-- R152: a failed ENCODE leaves no trace: it may be repeated with the same result, and an ENCODE after correcting its
arguments does exactly what it would have done had the failed one never happened. -/
def Obligations.FailedEncodeLeavesNoTrace : Prop :=
  ∀ s t : State, ¬ s.admitsEncode → exec .encode s = .next t →
    exec .encode t = .next t ∧
    ∀ len cap : Word, exec .encode { t with pcmLen := len, outCapacity := cap } =
      exec .encode { s with pcmLen := len, outCapacity := cap }

/-- R176: the result for one channel does not depend on the other: coefficients of channel c are a function of that
channel's tail and its 128 new samples. -/
def Obligations.ChannelsAreTransformedAlone : Prop :=
  ∀ (s₁ s₂ : State) (n c k : Nat), overlap s₁ c = overlap s₂ c →
    (∀ j, j < 128 → pcmSample s₁ n c j = pcmSample s₂ n c j) →
      coefficient lep10 s₁ n c k = coefficient lep10 s₂ n c k

/-- R202: the twelve header bytes are those of the rule's table, `32 * sfIdx + channelMode`, and each decodes to the
pair it was made from: bits 7..5 and bits 2..0. -/
def Obligations.HeaderByteDecodesLosslessly : Prop :=
  ∀ f ∈ [(44100, 0), (48000, 1), (88200, 2), (96000, 3)], ∀ m < 3,
    (headerByte (BitVec.ofNat 32 f.1) (BitVec.ofNat 32 m)).toNat = 32 * f.2 + m ∧
    ((headerByte (BitVec.ofNat 32 f.1) (BitVec.ofNat 32 m)).extractLsb' 5 3).toNat = f.2 ∧
    ((headerByte (BitVec.ofNat 32 f.1) (BitVec.ofNat 32 m)).extractLsb' 0 3).toNat = m

/-! ## Binary32, transform, quantizer -/

/-- R170: addition of finite values gives the binary32 value nearest the exact sum, ties to even, finite below half a
step past the largest finite value (where overflow begins is IEEE 754's convention, PRESUMED, log 21); an exact zero
sum is +0.0 unless both operands are negative. Values are counted in units of 2^-149. -/
def Obligations.AdditionRoundsToNearestEven : Prop :=
  ∀ a b : F32, isFinite a = true → isFinite b = true →
    (units a + units b = 0 → fadd a b = if signBit a = true ∧ signBit b = true then 0x80000000#32 else 0#32) ∧
    (|units a + units b| < (2 ^ 25 - 1) * 2 ^ 252 → isFinite (fadd a b) = true) ∧
    (isFinite (fadd a b) = true → ∀ y : F32, isFinite y = true →
      |units (fadd a b) - (units a + units b)| ≤ |units y - (units a + units b)| ∧
      (|units (fadd a b) - (units a + units b)| = |units y - (units a + units b)| →
        units y = units (fadd a b) ∨ (fadd a b).getLsbD 0 = false))

/-- R170: multiplication of finite values gives the binary32 value nearest the exact product, ties to even, with the
exclusive-or of the signs, finite below half a step past the largest finite value (where overflow begins is IEEE 754's
convention, PRESUMED, log 21). -/
def Obligations.MultiplicationRoundsToNearestEven : Prop :=
  ∀ a b : F32, isFinite a = true → isFinite b = true →
    signBit (fmul a b) = (signBit a ^^ signBit b) ∧
    (|units a * units b| < (2 ^ 25 - 1) * 2 ^ 401 → isFinite (fmul a b) = true) ∧
    (isFinite (fmul a b) = true → ∀ y : F32, isFinite y = true →
      |units (fmul a b) * 2 ^ 149 - units a * units b| ≤ |units y * 2 ^ 149 - units a * units b| ∧
      (|units (fmul a b) * 2 ^ 149 - units a * units b| = |units y * 2 ^ 149 - units a * units b| →
        units y = units (fmul a b) ∨ (fmul a b).getLsbD 0 = false))

/-- R147: the conversion of a sample is exact: its value is the sign-extended integer, without scaling. -/
def Obligations.SampleConversionIsExact : Prop :=
  ∀ x : BitVec 16, isFinite (f32OfSample x) = true ∧ units (f32OfSample x) = x.toInt * 2 ^ 149

/-- R171, R172, R173: the ROM has 128 positive entries below 1, strictly falling; the window is symmetric; every basis
value is non-zero with magnitude below 1, and its index is odd and never 256. -/
def Obligations.RomWindowAndBasisBounds : Prop :=
  rom.length = 128 ∧
  (∀ j, j < 128 → 0 < (romAt j).toNat ∧ (romAt j).toNat < 0x3F800000) ∧
  (∀ i j, i < j → j < 128 → (romAt j).toNat < (romAt i).toNat) ∧
  (∀ n, n < 256 → win n = win (255 - n) ∧ signBit (win n) = false ∧ 0 < magnitude (win n) ∧
    magnitude (win n) < 2 ^ 149) ∧
  (∀ k n, k < 128 → n < 256 → basIndex k n % 2 = 1 ∧ basIndex k n ≠ 256 ∧ basIndex k n ≤ 511 ∧
    isFinite (bas k n) = true ∧ 0 < magnitude (bas k n) ∧ magnitude (bas k n) < 2 ^ 149)

/-- R177 item 1: the transform of an all +0.0 window is all +0.0. -/
def Obligations.TransformOfSilenceIsZero : Prop :=
  ∀ a : Nat → F32, (∀ n, n < 256 → a n = 0#32) → ∀ k, k < 128 → transform a k = 0#32

/-- R177 item 3: with one non-zero sample the coefficient is that sample's product alone. -/
def Obligations.SingleSampleTransform : Prop :=
  ∀ (a : Nat → F32) (m : Nat) (x : BitVec 16), m < 256 → x ≠ 0 → a m = f32OfSample x →
    (∀ n, n < 256 → n ≠ m → a n = 0#32) →
      ∀ k, k < 128 → transform a k = fmul (bas k m) (fmul (win m) (f32OfSample x))

/-- R177 item 2: on samples every windowed value has magnitude at most 32768, and no coefficient is an infinity or a
NaN or exceeds 8,388,864 in magnitude. -/
def Obligations.CoefficientsStayFinite : Prop :=
  ∀ a : Nat → F32, (∀ n, n < 256 → ∃ x : BitVec 16, a n = f32OfSample x) →
    (∀ n, n < 256 → isFinite (fmul (win n) (a n)) = true ∧ magnitude (fmul (win n) (a n)) ≤ 32768 * 2 ^ 149) ∧
    ∀ k, k < 128 → isFinite (transform a k) = true ∧ magnitude (transform a k) ≤ 8388864 * 2 ^ 149

/-- R178: for finite x, Q(x) is 128 plus the integer r nearest x / 32768, ties to even, clipped to -128..127; a NaN
gives 128, +infinity 255, -infinity 0. -/
def Obligations.QuantizerIsTheClippedNearestInteger : Prop :=
  (∀ (x : F32) (r : Int), isFinite x = true →
    2 * |units x - r * 2 ^ 164| ≤ 2 ^ 164 → (2 * |units x - r * 2 ^ 164| = 2 ^ 164 → r % 2 = 0) →
      ((quantize x).toNat : Int) = 128 + (if r < -128 then -128 else if 127 < r then 127 else r)) ∧
  (∀ x : F32, isNaN x = true → quantize x = 128#8) ∧
  quantize 0x7F800000#32 = 255#8 ∧ quantize 0xFF800000#32 = 0#8

/-! ## Several instances -/

/-- R235: a step of one instance is that instance's own step and changes no other instance. -/
def Obligations.InstancesAreIsolated : Prop :=
  ∀ (n : Nat) [NeZero n] (sys sys' : System n) (k : Fin n), sys.stepInstance k = .next sys' →
    step sys[k] = .next sys'[k] ∧ ∀ j : Fin n, j ≠ k → sys'[j] = sys[j]
end

