-- ==== Sys2Proof/Laws/Binary32.lean ====
section
/-! SUPPORT. Binary32: the fields of a pattern, and that `roundToF32` rounds to the nearest binary32 value, ties to
even (R170). -/

namespace Sys2Proof.Machine

/-! ## Fields of a pattern -/

theorem signBit_withSign (s : Bool) (low : Nat) (h : low < 2 ^ 31) : signBit (withSign s low) = s := by
  simp only [signBit, withSign, BitVec.getLsbD_ofNat]
  cases s
  · simp only [Bool.false_eq_true, if_false, Nat.zero_add]
    simpa using Nat.testBit_lt_two_pow h
  · simp only [if_true]
    rw [Nat.testBit_two_pow_add_eq, Nat.testBit_lt_two_pow h]
    rfl

theorem toNat_withSign (s : Bool) (low : Nat) (h : low < 2 ^ 31) :
    (withSign s low).toNat = (if s then 2 ^ 31 else 0) + low := by
  simp only [withSign, BitVec.toNat_ofNat]
  cases s <;> simp <;> omega

theorem expField_withSign (s : Bool) (low : Nat) (h : low < 2 ^ 31) :
    expField (withSign s low) = low / 2 ^ 23 := by
  rw [expField, toNat_withSign s low h]
  cases s <;> simp only [Bool.false_eq_true, if_false, if_true] <;> omega

theorem fracField_withSign (s : Bool) (low : Nat) (h : low < 2 ^ 31) :
    fracField (withSign s low) = low % 2 ^ 23 := by
  rw [fracField, toNat_withSign s low h]
  cases s <;> simp only [Bool.false_eq_true, if_false, if_true] <;> omega

theorem expField_lt (x : F32) : expField x < 256 := Nat.mod_lt _ (by decide)

theorem fracField_lt (x : F32) : fracField x < 2 ^ 23 := Nat.mod_lt _ (by decide)

/-- A low part q * 2^23 + m, with m a significand at exponent q, has magnitude m * 2^q. -/
theorem magnitude_withSign (s : Bool) (q m : Nat) (hm : m ≤ 2 ^ 24) (hq : q = 0 ∨ 2 ^ 23 ≤ m)
    (h : q * 2 ^ 23 + m < infinityLow) : magnitude (withSign s (q * 2 ^ 23 + m)) = m * 2 ^ q := by
  have h31 : q * 2 ^ 23 + m < 2 ^ 31 := by simp only [infinityLow] at h; omega
  rw [magnitude, expField_withSign s _ h31, fracField_withSign s _ h31]
  by_cases h24 : m = 2 ^ 24
  · subst h24
    have e : (q * 2 ^ 23 + 2 ^ 24) / 2 ^ 23 = q + 2 := by omega
    have f : (q * 2 ^ 23 + 2 ^ 24) % 2 ^ 23 = 0 := by omega
    rw [e, f, if_neg (by omega), show q + 2 - 1 = q + 1 by omega, pow_succ]
    ring
  · by_cases h23 : 2 ^ 23 ≤ m
    · have e : (q * 2 ^ 23 + m) / 2 ^ 23 = q + 1 := by omega
      have f : (q * 2 ^ 23 + m) % 2 ^ 23 = m - 2 ^ 23 := by omega
      rw [e, f, if_neg (by omega), show q + 1 - 1 = q by omega, show 2 ^ 23 + (m - 2 ^ 23) = m by omega]
    · obtain rfl : q = 0 := by omega
      have e : (0 * 2 ^ 23 + m) / 2 ^ 23 = 0 := by omega
      have f : (0 * 2 ^ 23 + m) % 2 ^ 23 = m := by omega
      rw [e, f, if_pos rfl]
      simp

/-- Every finite magnitude is a significand below 2^24 times a power of two, the exponent at most 253. -/
theorem magnitude_form (x : F32) (h : isFinite x = true) :
    ∃ m q, magnitude x = m * 2 ^ q ∧ m < 2 ^ 24 ∧ q ≤ 253 := by
  have he := expField_lt x
  have hf := fracField_lt x
  simp only [isFinite, bne_iff_ne, ne_eq] at h
  by_cases h0 : expField x = 0
  · exact ⟨fracField x, 0, by simp [magnitude, h0], by omega, by omega⟩
  · exact ⟨2 ^ 23 + fracField x, expField x - 1, by simp [magnitude, h0], by omega, by omega⟩

/-! ## Rounding -/

/-- The two bounds of the rounded quotient. -/
theorem rneShift_bounds (n d : Nat) : n / 2 ^ d ≤ rneShift n d ∧ rneShift n d ≤ n / 2 ^ d + 1 := by
  simp only [rneShift]; split <;> omega

/-- Twice the rounding error is at most the step, and on a tie the result is even. -/
theorem rneShift_error (n d : Nat) :
    2 * |(n : Int) - (rneShift n d : Int) * 2 ^ d| ≤ 2 ^ d ∧
    (2 * |(n : Int) - (rneShift n d : Int) * 2 ^ d| = 2 ^ d → rneShift n d % 2 = 0 ∨ d = 0) := by
  have hdiv : 2 ^ d * (n / 2 ^ d) + n % 2 ^ d = n := Nat.div_add_mod n (2 ^ d)
  have hmod : n % 2 ^ d < 2 ^ d := Nat.mod_lt _ (Nat.two_pow_pos d)
  have hz : (n : Int) = 2 ^ d * ((n / 2 ^ d : Nat) : Int) + ((n % 2 ^ d : Nat) : Int) := by
    exact_mod_cast hdiv.symm
  simp only [rneShift]
  generalize hq : n / 2 ^ d = q at *
  generalize hr : n % 2 ^ d = r at *
  have hP : ((2 ^ d : Nat) : Int) = (2 : Int) ^ d := by push_cast; rfl
  generalize (2 : Int) ^ d = P at *
  generalize hp : (2 ^ d : Nat) = p at *
  split
  · rename_i hc
    have e : (n : Int) - ((q + 1 : Nat) : Int) * P = (r : Int) - P := by push_cast; rw [hz]; ring
    rw [e, abs_of_nonpos (by omega)]
    simp only [Bool.or_eq_true, decide_eq_true_eq, Bool.and_eq_true, beq_iff_eq] at hc
    refine ⟨by omega, fun ht => ?_⟩
    left; omega
  · rename_i hc
    have e : (n : Int) - (q : Int) * P = (r : Int) := by rw [hz]; ring
    rw [e, abs_of_nonneg (by omega)]
    simp only [Bool.or_eq_true, decide_eq_true_eq, Bool.and_eq_true, beq_iff_eq, not_or, not_and] at hc
    refine ⟨by omega, fun ht => ?_⟩
    left
    have := hc.2 (by omega)
    omega

/-- rneShift is nearest among the multiples of 2^d, and where another multiple is as near it is even. -/
theorem rneShift_nearest (n d : Nat) (j : Int) :
    |(n : Int) - (rneShift n d : Int) * 2 ^ d| ≤ |(n : Int) - j * 2 ^ d| ∧
    (|(n : Int) - (rneShift n d : Int) * 2 ^ d| = |(n : Int) - j * 2 ^ d| →
      j = rneShift n d ∨ rneShift n d % 2 = 0) := by
  obtain ⟨h1, h2⟩ := rneShift_error n d
  by_cases hj : j = rneShift n d
  · subst hj; exact ⟨le_refl _, fun _ => Or.inl rfl⟩
  · have hP : (0 : Int) < 2 ^ d := by positivity
    have hstep : (2 : Int) ^ d ≤ |((rneShift n d : Int) - j) * 2 ^ d| := by
      rw [abs_mul, abs_of_pos hP]
      have : 1 ≤ |(rneShift n d : Int) - j| := Int.one_le_abs (by omega)
      nlinarith
    have htri : |((rneShift n d : Int) - j) * 2 ^ d| ≤
        |(n : Int) - (rneShift n d : Int) * 2 ^ d| + |(n : Int) - j * 2 ^ d| := by
      have e : ((rneShift n d : Int) - j) * 2 ^ d =
          ((n : Int) - j * 2 ^ d) - ((n : Int) - (rneShift n d : Int) * 2 ^ d) := by ring
      rw [e]
      have := abs_sub ((n : Int) - j * 2 ^ d) ((n : Int) - (rneShift n d : Int) * 2 ^ d)
      linarith
    refine ⟨by linarith, fun heq => ?_⟩
    rcases h2 (by linarith) with h | h
    · exact Or.inr h
    · subst h
      exfalso
      have hz : rneShift n 0 = n := by simp [rneShift, Nat.mod_one]
      rw [hz] at heq
      simp only [pow_zero, mul_one, sub_self, abs_zero] at heq
      have := abs_eq_zero.mp heq.symm
      exact hj (by rw [hz]; omega)

/-- The significand of a rounding: at most 2^24, and at least 2^23 where the exponent is above the least one. -/
theorem roundMagnitude_form (n k : Nat) :
    let d := max k (Nat.log2 n - 23)
    roundMagnitude n k = (d - k) * 2 ^ 23 + rneShift n d ∧ rneShift n d ≤ 2 ^ 24 ∧
    (d - k = 0 ∨ (2 ^ 23 ≤ rneShift n d ∧ 2 ^ 23 * 2 ^ d ≤ n)) := by
  intro d
  refine ⟨rfl, ?_, ?_⟩
  · have hlt : n < 2 ^ (d + 24) := lt_of_lt_of_le (Nat.lt_log2_self) (Nat.pow_le_pow_right (by decide) (by omega))
    have : n / 2 ^ d < 2 ^ 24 := by
      rw [Nat.div_lt_iff_lt_mul (Nat.two_pow_pos d), ← pow_add, Nat.add_comm 24 d]; exact hlt
    have := (rneShift_bounds n d).2
    omega
  · by_cases hd : d - k = 0
    · exact Or.inl hd
    · right
      have hn : n ≠ 0 := by rintro rfl; simp [d] at hd
      have hdl : d = Nat.log2 n - 23 := by omega
      have hle : 2 ^ 23 * 2 ^ d ≤ n := by
        rw [← pow_add]
        exact le_trans (Nat.pow_le_pow_right (by decide) (by omega)) (Nat.log2_self_le hn)
      refine ⟨le_trans ?_ (rneShift_bounds n d).1, hle⟩
      rwa [Nat.le_div_iff_mul_le (Nat.two_pow_pos d)]

theorem min_low_lt (n k : Nat) : min (roundMagnitude n k) infinityLow < 2 ^ 31 := by
  simp only [infinityLow]; omega

theorem signBit_roundToF32 (s : Bool) (n k : Nat) : signBit (roundToF32 s n k) = s :=
  signBit_withSign s _ (min_low_lt n k)

/-- A rounding is finite exactly when it stays below infinity's pattern. -/
theorem isFinite_roundToF32 (s : Bool) (n k : Nat) :
    isFinite (roundToF32 s n k) = true ↔ roundMagnitude n k < infinityLow := by
  rw [isFinite, roundToF32, expField_withSign s _ (min_low_lt n k), bne_iff_ne]
  simp only [infinityLow]
  omega

/-- A rounding is never a NaN. -/
theorem isNaN_roundToF32 (s : Bool) (n k : Nat) : isNaN (roundToF32 s n k) = false := by
  rw [isNaN, roundToF32, expField_withSign s _ (min_low_lt n k), fracField_withSign s _ (min_low_lt n k)]
  simp only [infinityLow, Bool.and_eq_false_iff, beq_eq_false_iff_ne, bne_eq_false_iff_eq, ne_eq]
  omega

/-- The magnitude of a finite rounding: the significand times the power. -/
theorem magnitude_roundToF32 (s : Bool) (n k : Nat) (h : isFinite (roundToF32 s n k) = true) :
    magnitude (roundToF32 s n k) =
      rneShift n (max k (Nat.log2 n - 23)) * 2 ^ (max k (Nat.log2 n - 23) - k) := by
  rw [isFinite_roundToF32] at h
  obtain ⟨h1, h2, h3⟩ := roundMagnitude_form n k
  rw [roundToF32, min_eq_left (le_of_lt h), h1]
  exact magnitude_withSign s _ _ h2 (h3.imp id And.left) (h1 ▸ h)

/-- The last bit of a finite rounding is that of its significand. -/
theorem lastBit_roundToF32 (s : Bool) (n k : Nat) (h : isFinite (roundToF32 s n k) = true)
    (he : rneShift n (max k (Nat.log2 n - 23)) % 2 = 0) : (roundToF32 s n k).getLsbD 0 = false := by
  rw [isFinite_roundToF32] at h
  obtain ⟨h1, h2, h3⟩ := roundMagnitude_form n k
  have hb : (roundToF32 s n k).toNat % 2 = 0 := by
    rw [roundToF32, min_eq_left (le_of_lt h), toNat_withSign _ _ (by simp only [infinityLow] at h; omega), h1]
    cases s <;> simp only [Bool.false_eq_true, if_false, if_true] <;> omega
  rw [BitVec.getLsbD, Nat.testBit_zero]
  simp only [decide_eq_false_iff_not]
  omega

/-- roundToF32 is nearest in magnitude: no significand below 2^24 at any exponent is nearer to n * 2^-k, and where
another value is as near the result's last bit is 0. -/
theorem roundToF32_nearest (s : Bool) (n k m q : Nat) (hm : m < 2 ^ 24)
    (h : isFinite (roundToF32 s n k) = true) :
    |(n : Int) - magnitude (roundToF32 s n k) * 2 ^ k| ≤ |(n : Int) - m * 2 ^ q * 2 ^ k| ∧
    (|(n : Int) - magnitude (roundToF32 s n k) * 2 ^ k| = |(n : Int) - m * 2 ^ q * 2 ^ k| →
      (magnitude (roundToF32 s n k) = m * 2 ^ q ∨ (roundToF32 s n k).getLsbD 0 = false)) := by
  have hlast := lastBit_roundToF32 s n k h
  rw [magnitude_roundToF32 s n k h]
  obtain ⟨-, h2, h3⟩ := roundMagnitude_form n k
  generalize hd : max k (Nat.log2 n - 23) = d at *
  have hkd : k ≤ d := by omega
  have hpow : ((2 : Int) ^ (d - k)) * 2 ^ k = 2 ^ d := by rw [← pow_add]; congr 1; omega
  have hlhs : ((rneShift n d * 2 ^ (d - k) : Nat) : Int) * 2 ^ k = (rneShift n d : Int) * 2 ^ d := by
    push_cast; rw [mul_assoc, hpow]
  rw [hlhs]
  by_cases hq : d ≤ q + k
  · -- the other value is a multiple of the step
    have hj : (m : Int) * 2 ^ q * 2 ^ k = ((m : Int) * 2 ^ (q + k - d)) * 2 ^ d := by
      rw [mul_assoc, ← pow_add, mul_assoc, ← pow_add]; congr 2; omega
    rw [hj]
    obtain ⟨g1, g2⟩ := rneShift_nearest n d ((m : Int) * 2 ^ (q + k - d))
    refine ⟨g1, fun he => ?_⟩
    rcases g2 he with g | g
    · left
      have hz : (rneShift n d : Int) * 2 ^ (d - k) = (m : Int) * 2 ^ q := by
        rw [← g, mul_assoc, ← pow_add]; congr 2; omega
      exact_mod_cast hz
    · exact Or.inr (hlast g)
  · -- the other value lies below the least significand of this exponent
    have hge : 2 ^ 23 * 2 ^ d ≤ n := by rcases h3 with h3 | h3 <;> omega
    have hlt : (m : Int) * 2 ^ q * 2 ^ k < 2 ^ 23 * 2 ^ d := by
      have e1 : (2 : Int) ^ 24 * (2 ^ q * 2 ^ k) ≤ 2 ^ 23 * 2 ^ d := by
        rw [← pow_add, ← pow_add, ← pow_add]
        exact pow_le_pow_right₀ (by norm_num) (by omega)
      have hpos : (0 : Int) < 2 ^ q * 2 ^ k := by positivity
      have : (m : Int) < 2 ^ 24 := by exact_mod_cast hm
      nlinarith
    have hge' : (2 : Int) ^ 23 * 2 ^ d ≤ n := by exact_mod_cast hge
    have g1 := (rneShift_nearest n d (2 ^ 23)).1
    rw [abs_of_nonneg (show (0 : Int) ≤ (n : Int) - 2 ^ 23 * 2 ^ d by linarith)] at g1
    have g2 : |(n : Int) - m * 2 ^ q * 2 ^ k| = (n : Int) - m * 2 ^ q * 2 ^ k := abs_of_nonneg (by linarith)
    rw [g2]
    exact ⟨by linarith, fun he => absurd he (by linarith)⟩

/-- Below (2^25 - 1) * 2^252 units, half a step past the largest finite value, a rounding is finite. -/
theorem isFinite_of_below (s : Bool) (n k : Nat) (hn : n < (2 ^ 25 - 1) * 2 ^ (252 + k)) :
    isFinite (roundToF32 s n k) = true := by
  rw [isFinite_roundToF32]
  obtain ⟨h1, h2, h3⟩ := roundMagnitude_form n k
  rw [h1]
  generalize hd : max k (Nat.log2 n - 23) = d at *
  have hlog : n ≠ 0 → Nat.log2 n < 277 + k := fun h0 => by
    rw [Nat.log2_lt h0]
    refine lt_of_lt_of_le hn ?_
    calc (2 ^ 25 - 1) * 2 ^ (252 + k) ≤ 2 ^ 25 * 2 ^ (252 + k) := Nat.mul_le_mul_right _ (by omega)
      _ = 2 ^ (277 + k) := by rw [← pow_add]; congr 1; omega
  have hdk : d - k ≤ 253 := by
    by_cases h0 : n = 0
    · subst h0; simp at hd; omega
    · have := hlog h0; omega
  simp only [infinityLow]
  by_cases hlt : d - k ≤ 252
  · omega
  · have hd' : d = 253 + k := by omega
    have hq : rneShift n d < 2 ^ 24 := by
      by_contra hc
      have hc' : (2 : Int) ^ 24 ≤ rneShift n d := by exact_mod_cast not_lt.mp hc
      have g1 := (rneShift_error n d).1
      have g2 := abs_le.mp (show |(n : Int) - (rneShift n d : Int) * 2 ^ d| ≤ 2 ^ (252 + k) by
        have e : (2 : Int) ^ d = 2 * 2 ^ (252 + k) := by rw [hd', ← pow_succ']; congr 1; omega
        rw [e] at g1 ⊢; linarith)
      have e : (2 : Int) ^ d = 2 * 2 ^ (252 + k) := by rw [hd', ← pow_succ']; congr 1; omega
      have hn' : (n : Int) < 33554431 * 2 ^ (252 + k) := by exact_mod_cast (show n < 33554431 * 2 ^ (252 + k) from hn)
      have hpos : (0 : Int) < 2 ^ (252 + k) := by positivity
      rw [e] at g2
      nlinarith [g2.1]
    omega

end Sys2Proof.Machine
end

