-- ==== Sys2Proof/Laws/Arithmetic.lean ====
section
/-! SUPPORT. What `fadd`, `fmul` and the integer conversion give on finite operands, and the bounds and exact cases of
one rounding. -/

namespace Sys2Proof.Machine

theorem isNaN_of_finite {x : F32} (h : isFinite x = true) : isNaN x = false := by
  simp only [isFinite, bne_iff_ne, ne_eq] at h
  simp [isNaN, h]

theorem isInf_of_finite {x : F32} (h : isFinite x = true) : isInf x = false := by
  simp only [isFinite, bne_iff_ne, ne_eq] at h
  simp [isInf, h]

/-- Addition of finite values: the exact sum rounded once, an exact zero with R170's sign. -/
theorem fadd_of_finite {a b : F32} (ha : isFinite a = true) (hb : isFinite b = true) :
    fadd a b = if units a + units b = 0 then withSign (signBit a && signBit b) 0
      else roundToF32 (decide (units a + units b < 0)) (units a + units b).natAbs 0 := by
  simp [fadd, isNaN_of_finite ha, isNaN_of_finite hb, isInf_of_finite ha, isInf_of_finite hb]

/-- Multiplication of finite values: the exact product rounded once. -/
theorem fmul_of_finite {a b : F32} (ha : isFinite a = true) (hb : isFinite b = true) :
    fmul a b = roundToF32 (signBit a ^^ signBit b) (magnitude a * magnitude b) 149 := by
  simp [fmul, isNaN_of_finite ha, isNaN_of_finite hb, isInf_of_finite ha, isInf_of_finite hb]

theorem units_eq (x : F32) : units x = if signBit x then -(magnitude x : Int) else (magnitude x : Int) := rfl

theorem natAbs_units (x : F32) : (units x).natAbs = magnitude x := by
  rw [units_eq]; split <;> simp

theorem units_roundToF32 (s : Bool) (n k : Nat) :
    units (roundToF32 s n k) =
      if s then -(magnitude (roundToF32 s n k) : Int) else (magnitude (roundToF32 s n k) : Int) := by
  rw [units_eq, signBit_roundToF32]

/-- A rounding does not pass a representable bound. -/
theorem magnitude_roundToF32_le (s : Bool) (n k m q : Nat) (hm : m < 2 ^ 24) (hn : n ≤ m * 2 ^ q * 2 ^ k)
    (h : isFinite (roundToF32 s n k) = true) : magnitude (roundToF32 s n k) ≤ m * 2 ^ q := by
  by_contra hc
  have g := (roundToF32_nearest s n k m q hm h).1
  have hn' : (n : Int) ≤ m * 2 ^ q * 2 ^ k := by exact_mod_cast hn
  have hP : (0 : Int) < 2 ^ k := by positivity
  have hlt : (m : Int) * 2 ^ q + 1 ≤ magnitude (roundToF32 s n k) := by exact_mod_cast Nat.lt_of_not_le hc
  have hlt' : (m : Int) * 2 ^ q * 2 ^ k + 2 ^ k ≤ magnitude (roundToF32 s n k) * 2 ^ k := by nlinarith
  rw [abs_of_nonpos (by linarith), abs_of_nonpos (by linarith)] at g
  linarith

/-- A representable value is rounded to itself. -/
theorem magnitude_roundToF32_exact (s : Bool) (n k m q : Nat) (hm : m < 2 ^ 24) (hn : n = m * 2 ^ q * 2 ^ k)
    (h : isFinite (roundToF32 s n k) = true) : magnitude (roundToF32 s n k) = m * 2 ^ q := by
  have g := (roundToF32_nearest s n k m q hm h).1
  have hn' : (n : Int) = m * 2 ^ q * 2 ^ k := by exact_mod_cast hn
  rw [hn', sub_self, abs_zero] at g
  have g' := abs_nonpos_iff.mp g
  have hP : (0 : Int) < 2 ^ k := by positivity
  have e : ((m : Int) * 2 ^ q - magnitude (roundToF32 s n k)) * 2 ^ k = 0 := by linarith
  rcases mul_eq_zero.mp e with e | e
  · have : (magnitude (roundToF32 s n k) : Int) = m * 2 ^ q := by linarith
    exact_mod_cast this
  · exact absurd e (ne_of_gt hP)

/-- A pattern is determined by its sign, exponent field and fraction field. -/
theorem eq_withSign (x : F32) : x = withSign (signBit x) (expField x * 2 ^ 23 + fracField x) := by
  have hx := x.isLt
  have h31 : signBit x = decide (2 ^ 31 ≤ x.toNat) := by
    have : x.getLsbD 31 = x.msb := by rw [BitVec.msb_eq_getLsbD_last]
    rw [signBit, this, BitVec.msb_eq_decide]
  apply BitVec.eq_of_toNat_eq
  rw [toNat_withSign _ _ (by have := expField_lt x; have := fracField_lt x; omega), h31]
  simp only [expField, fracField, decide_eq_true_eq]
  split <;> omega

/-- Two finite patterns of equal sign and magnitude are equal: binary32 has one pattern per signed value. -/
theorem eq_of_sign_magnitude {x y : F32} (hs : signBit x = signBit y) (hm : magnitude x = magnitude y) :
    x = y := by
  have hx := eq_withSign x
  have hy := eq_withSign y
  have fx := fracField_lt x
  have fy := fracField_lt y
  have low : expField x * 2 ^ 23 + fracField x = expField y * 2 ^ 23 + fracField y := by
    simp only [magnitude] at hm
    split at hm <;> split at hm
    · omega
    · have : 2 ^ 23 * 1 ≤ (2 ^ 23 + fracField y) * 2 ^ (expField y - 1) :=
        Nat.mul_le_mul (by omega) (Nat.one_le_two_pow)
      omega
    · have : 2 ^ 23 * 1 ≤ (2 ^ 23 + fracField x) * 2 ^ (expField x - 1) :=
        Nat.mul_le_mul (by omega) (Nat.one_le_two_pow)
      omega
    · rename_i h1 h2
      rcases lt_trichotomy (expField x) (expField y) with h | h | h
      · exfalso
        have : (2 ^ 23 + fracField x) * 2 ^ (expField x - 1) < (2 ^ 23 + fracField y) * 2 ^ (expField y - 1) :=
          calc (2 ^ 23 + fracField x) * 2 ^ (expField x - 1)
              < (2 ^ 23 * 2) * 2 ^ (expField x - 1) := Nat.mul_lt_mul_of_pos_right (by omega) (by positivity)
            _ = 2 ^ 23 * 2 ^ (expField x - 1 + 1) := by rw [pow_succ]; ring
            _ ≤ (2 ^ 23 + fracField y) * 2 ^ (expField y - 1) :=
              Nat.mul_le_mul (by omega) (Nat.pow_le_pow_right (by decide) (by omega))
        omega
      · rw [h] at hm
        have := Nat.eq_of_mul_eq_mul_right (by positivity) hm
        omega
      · exfalso
        have : (2 ^ 23 + fracField y) * 2 ^ (expField y - 1) < (2 ^ 23 + fracField x) * 2 ^ (expField x - 1) :=
          calc (2 ^ 23 + fracField y) * 2 ^ (expField y - 1)
              < (2 ^ 23 * 2) * 2 ^ (expField y - 1) := Nat.mul_lt_mul_of_pos_right (by omega) (by positivity)
            _ = 2 ^ 23 * 2 ^ (expField y - 1 + 1) := by rw [pow_succ]; ring
            _ ≤ (2 ^ 23 + fracField x) * 2 ^ (expField x - 1) :=
              Nat.mul_le_mul (by omega) (Nat.pow_le_pow_right (by decide) (by omega))
        omega
  rw [hx, hy, hs, low]

/-- A finite value times the exact power 1, in both signs: rounding a finite value's own magnitude gives it back. -/
theorem roundToF32_magnitude {x : F32} (h : isFinite x = true) :
    roundToF32 (signBit x) (magnitude x) 0 = x := by
  obtain ⟨m, q, hm, hlt, hq⟩ := magnitude_form x h
  have hfin : isFinite (roundToF32 (signBit x) (magnitude x) 0) = true := by
    refine isFinite_of_below _ _ _ ?_
    rw [hm]
    calc m * 2 ^ q ≤ (2 ^ 24 - 1) * 2 ^ 253 :=
          Nat.mul_le_mul (by omega) (Nat.pow_le_pow_right (by decide) hq)
      _ < (2 ^ 25 - 1) * 2 ^ (252 + 0) := by norm_num
  refine eq_of_sign_magnitude (signBit_roundToF32 _ _ _) ?_
  rw [magnitude_roundToF32_exact _ _ _ m q hlt (by rw [hm]; simp) hfin, hm]

/-- Adding a zero of either sign to a finite non-zero value gives that value (R177 item 3). -/
theorem fadd_zero_right {x z : F32} (hx : isFinite x = true) (hx0 : magnitude x ≠ 0)
    (hz : isFinite z = true) (hz0 : magnitude z = 0) : fadd x z = x := by
  have hu : units z = 0 := by rw [units_eq, hz0]; simp
  have hne : units x ≠ 0 := by
    intro h; apply hx0; rw [← natAbs_units, h]; rfl
  rw [fadd_of_finite hx hz, hu, add_zero, if_neg hne, natAbs_units]
  have hs : decide (units x < 0) = signBit x := by
    rw [units_eq]
    have hpos : (magnitude x : Int) ≠ 0 := by exact_mod_cast hx0
    cases signBit x <;> simp only [Bool.false_eq_true, if_false, if_true, decide_eq_true_eq, decide_eq_false_iff_not] <;> omega
  rw [hs, roundToF32_magnitude hx]

/-- Adding a finite value to a zero of either sign gives that value where it is not zero. -/
theorem fadd_zero_left {x z : F32} (hx : isFinite x = true) (hx0 : magnitude x ≠ 0)
    (hz : isFinite z = true) (hz0 : magnitude z = 0) : fadd z x = x := by
  have hu : units z = 0 := by rw [units_eq, hz0]; simp
  have hne : units x ≠ 0 := by
    intro h; apply hx0; rw [← natAbs_units, h]; rfl
  rw [fadd_of_finite hz hx, hu, zero_add, if_neg hne, natAbs_units]
  have hs : decide (units x < 0) = signBit x := by
    rw [units_eq]
    have hpos : (magnitude x : Int) ≠ 0 := by exact_mod_cast hx0
    cases signBit x <;> simp only [Bool.false_eq_true, if_false, if_true, decide_eq_true_eq, decide_eq_false_iff_not] <;> omega
  rw [hs, roundToF32_magnitude hx]

/-- +0.0 plus a zero of either sign is +0.0 (R170). -/
theorem fadd_posZero_zero {z : F32} (hz : isFinite z = true) (hz0 : magnitude z = 0) : fadd 0#32 z = 0#32 := by
  have hu : units z = 0 := by rw [units_eq, hz0]; simp
  have h0 : units 0#32 = 0 := by decide
  rw [fadd_of_finite (by decide) hz, hu, h0, add_zero, if_pos rfl]
  rfl

/-- A finite value times a zero is a zero (R170). -/
theorem magnitude_fmul_zero {x z : F32} (hx : isFinite x = true) (hz : isFinite z = true)
    (hz0 : magnitude z = 0) : isFinite (fmul x z) = true ∧ magnitude (fmul x z) = 0 := by
  rw [fmul_of_finite hx hz, hz0, Nat.mul_zero]
  have hfin : isFinite (roundToF32 (signBit x ^^ signBit z) 0 149) = true :=
    isFinite_of_below _ _ _ (by positivity)
  exact ⟨hfin, by simpa using magnitude_roundToF32_exact _ 0 149 0 0 (by norm_num) (by simp) hfin⟩

/-- What an invalid operation gives is a NaN, whichever it is (R170, log 11). -/
theorem isNaN_nanOf (a b : F32) : isNaN (nanOf a b) = true := by
  have h := (Config.nanBits a b).2.isLt
  have hlow : infinityLow + (1 + (Config.nanBits a b).2.val) < 2 ^ 31 := by simp only [infinityLow]; omega
  rw [isNaN, nanOf, expField_withSign _ _ hlow, fracField_withSign _ _ hlow, Bool.and_eq_true, beq_iff_eq, bne_iff_ne]
  simp only [infinityLow]
  omega

end Sys2Proof.Machine
end

