-- ==== Sys2Proof/Laws/State.lean ====
section
/-! SUPPORT. One lemma per field per named update of the state, true by rfl, so that no later proof unfolds a record
update. -/

namespace Sys2Proof.Machine

variable (s : State)

/-! ### answer -/

@[simp] theorem answer_session (rdata : Word) : (answer s rdata).session = s.session := rfl
@[simp] theorem answer_lastError (rdata : Word) : (answer s rdata).lastError = s.lastError := rfl
@[simp] theorem answer_actMtu (rdata : Word) : (answer s rdata).actMtu = s.actMtu := rfl
@[simp] theorem answer_actQuality (rdata : Word) : (answer s rdata).actQuality = s.actQuality := rfl
@[simp] theorem answer_actChmode (rdata : Word) : (answer s rdata).actChmode = s.actChmode := rfl
@[simp] theorem answer_actFormat (rdata : Word) : (answer s rdata).actFormat = s.actFormat := rfl
@[simp] theorem answer_actSfreq (rdata : Word) : (answer s rdata).actSfreq = s.actSfreq := rfl
@[simp] theorem answer_ovl0 (rdata : Word) : (answer s rdata).ovl0 = s.ovl0 := rfl
@[simp] theorem answer_ovl1 (rdata : Word) : (answer s rdata).ovl1 = s.ovl1 := rfl
@[simp] theorem answer_blockCount (rdata : Word) : (answer s rdata).blockCount = s.blockCount := rfl
@[simp] theorem answer_consumed (rdata : Word) : (answer s rdata).consumed = s.consumed := rfl
@[simp] theorem answer_frameLen (rdata : Word) : (answer s rdata).frameLen = s.frameLen := rfl
@[simp] theorem answer_frameCount (rdata : Word) : (answer s rdata).frameCount = s.frameCount := rfl
@[simp] theorem answer_cfgMtu (rdata : Word) : (answer s rdata).cfgMtu = s.cfgMtu := rfl
@[simp] theorem answer_cfgQuality (rdata : Word) : (answer s rdata).cfgQuality = s.cfgQuality := rfl
@[simp] theorem answer_cfgChmode (rdata : Word) : (answer s rdata).cfgChmode = s.cfgChmode := rfl
@[simp] theorem answer_cfgFormat (rdata : Word) : (answer s rdata).cfgFormat = s.cfgFormat := rfl
@[simp] theorem answer_cfgSfreq (rdata : Word) : (answer s rdata).cfgSfreq = s.cfgSfreq := rfl
@[simp] theorem answer_pcmLen (rdata : Word) : (answer s rdata).pcmLen = s.pcmLen := rfl
@[simp] theorem answer_outCapacity (rdata : Word) : (answer s rdata).outCapacity = s.outCapacity := rfl
@[simp] theorem answer_mem (rdata : Word) : (answer s rdata).mem = s.mem := rfl
@[simp] theorem answer_response (rdata : Word) : (answer s rdata).response = some ⟨rdata, false⟩ := rfl
@[simp] theorem answer_inputs (rdata : Word) : (answer s rdata).inputs = s.inputs := rfl
@[simp] theorem answer_resets (rdata : Word) : (answer s rdata).resets = s.resets := rfl
@[simp] theorem answer_unitIndex (rdata : Word) : (answer s rdata).unitIndex = s.unitIndex := rfl

/-! ### answerWrite -/

@[simp] theorem answerWrite_session : (answerWrite s).session = s.session := rfl
@[simp] theorem answerWrite_lastError : (answerWrite s).lastError = s.lastError := rfl
@[simp] theorem answerWrite_actMtu : (answerWrite s).actMtu = s.actMtu := rfl
@[simp] theorem answerWrite_actQuality : (answerWrite s).actQuality = s.actQuality := rfl
@[simp] theorem answerWrite_actChmode : (answerWrite s).actChmode = s.actChmode := rfl
@[simp] theorem answerWrite_actFormat : (answerWrite s).actFormat = s.actFormat := rfl
@[simp] theorem answerWrite_actSfreq : (answerWrite s).actSfreq = s.actSfreq := rfl
@[simp] theorem answerWrite_ovl0 : (answerWrite s).ovl0 = s.ovl0 := rfl
@[simp] theorem answerWrite_ovl1 : (answerWrite s).ovl1 = s.ovl1 := rfl
@[simp] theorem answerWrite_blockCount : (answerWrite s).blockCount = s.blockCount := rfl
@[simp] theorem answerWrite_consumed : (answerWrite s).consumed = s.consumed := rfl
@[simp] theorem answerWrite_frameLen : (answerWrite s).frameLen = s.frameLen := rfl
@[simp] theorem answerWrite_frameCount : (answerWrite s).frameCount = s.frameCount := rfl
@[simp] theorem answerWrite_cfgMtu : (answerWrite s).cfgMtu = s.cfgMtu := rfl
@[simp] theorem answerWrite_cfgQuality : (answerWrite s).cfgQuality = s.cfgQuality := rfl
@[simp] theorem answerWrite_cfgChmode : (answerWrite s).cfgChmode = s.cfgChmode := rfl
@[simp] theorem answerWrite_cfgFormat : (answerWrite s).cfgFormat = s.cfgFormat := rfl
@[simp] theorem answerWrite_cfgSfreq : (answerWrite s).cfgSfreq = s.cfgSfreq := rfl
@[simp] theorem answerWrite_pcmLen : (answerWrite s).pcmLen = s.pcmLen := rfl
@[simp] theorem answerWrite_outCapacity : (answerWrite s).outCapacity = s.outCapacity := rfl
@[simp] theorem answerWrite_mem : (answerWrite s).mem = s.mem := rfl
@[simp] theorem answerWrite_response : (answerWrite s).response = some ⟨0#32, false⟩ := rfl
@[simp] theorem answerWrite_inputs : (answerWrite s).inputs = s.inputs := rfl
@[simp] theorem answerWrite_resets : (answerWrite s).resets = s.resets := rfl
@[simp] theorem answerWrite_unitIndex : (answerWrite s).unitIndex = s.unitIndex := rfl

/-! ### answerError -/

@[simp] theorem answerError_session : (answerError s).session = s.session := rfl
@[simp] theorem answerError_lastError : (answerError s).lastError = s.lastError := rfl
@[simp] theorem answerError_actMtu : (answerError s).actMtu = s.actMtu := rfl
@[simp] theorem answerError_actQuality : (answerError s).actQuality = s.actQuality := rfl
@[simp] theorem answerError_actChmode : (answerError s).actChmode = s.actChmode := rfl
@[simp] theorem answerError_actFormat : (answerError s).actFormat = s.actFormat := rfl
@[simp] theorem answerError_actSfreq : (answerError s).actSfreq = s.actSfreq := rfl
@[simp] theorem answerError_ovl0 : (answerError s).ovl0 = s.ovl0 := rfl
@[simp] theorem answerError_ovl1 : (answerError s).ovl1 = s.ovl1 := rfl
@[simp] theorem answerError_blockCount : (answerError s).blockCount = s.blockCount := rfl
@[simp] theorem answerError_consumed : (answerError s).consumed = s.consumed := rfl
@[simp] theorem answerError_frameLen : (answerError s).frameLen = s.frameLen := rfl
@[simp] theorem answerError_frameCount : (answerError s).frameCount = s.frameCount := rfl
@[simp] theorem answerError_cfgMtu : (answerError s).cfgMtu = s.cfgMtu := rfl
@[simp] theorem answerError_cfgQuality : (answerError s).cfgQuality = s.cfgQuality := rfl
@[simp] theorem answerError_cfgChmode : (answerError s).cfgChmode = s.cfgChmode := rfl
@[simp] theorem answerError_cfgFormat : (answerError s).cfgFormat = s.cfgFormat := rfl
@[simp] theorem answerError_cfgSfreq : (answerError s).cfgSfreq = s.cfgSfreq := rfl
@[simp] theorem answerError_pcmLen : (answerError s).pcmLen = s.pcmLen := rfl
@[simp] theorem answerError_outCapacity : (answerError s).outCapacity = s.outCapacity := rfl
@[simp] theorem answerError_mem : (answerError s).mem = s.mem := rfl
@[simp] theorem answerError_response : (answerError s).response = some ⟨0#32, true⟩ := rfl
@[simp] theorem answerError_inputs : (answerError s).inputs = s.inputs := rfl
@[simp] theorem answerError_resets : (answerError s).resets = s.resets := rfl
@[simp] theorem answerError_unitIndex : (answerError s).unitIndex = s.unitIndex := rfl

/-! ### raiseError -/

@[simp] theorem raiseError_session (code : ErrorCode) : (raiseError s code).session = s.session := rfl
@[simp] theorem raiseError_lastError (code : ErrorCode) : (raiseError s code).lastError = code := rfl
@[simp] theorem raiseError_actMtu (code : ErrorCode) : (raiseError s code).actMtu = s.actMtu := rfl
@[simp] theorem raiseError_actQuality (code : ErrorCode) : (raiseError s code).actQuality = s.actQuality := rfl
@[simp] theorem raiseError_actChmode (code : ErrorCode) : (raiseError s code).actChmode = s.actChmode := rfl
@[simp] theorem raiseError_actFormat (code : ErrorCode) : (raiseError s code).actFormat = s.actFormat := rfl
@[simp] theorem raiseError_actSfreq (code : ErrorCode) : (raiseError s code).actSfreq = s.actSfreq := rfl
@[simp] theorem raiseError_ovl0 (code : ErrorCode) : (raiseError s code).ovl0 = s.ovl0 := rfl
@[simp] theorem raiseError_ovl1 (code : ErrorCode) : (raiseError s code).ovl1 = s.ovl1 := rfl
@[simp] theorem raiseError_blockCount (code : ErrorCode) : (raiseError s code).blockCount = s.blockCount := rfl
@[simp] theorem raiseError_consumed (code : ErrorCode) : (raiseError s code).consumed = s.consumed := rfl
@[simp] theorem raiseError_frameLen (code : ErrorCode) : (raiseError s code).frameLen = s.frameLen := rfl
@[simp] theorem raiseError_frameCount (code : ErrorCode) : (raiseError s code).frameCount = s.frameCount := rfl
@[simp] theorem raiseError_cfgMtu (code : ErrorCode) : (raiseError s code).cfgMtu = s.cfgMtu := rfl
@[simp] theorem raiseError_cfgQuality (code : ErrorCode) : (raiseError s code).cfgQuality = s.cfgQuality := rfl
@[simp] theorem raiseError_cfgChmode (code : ErrorCode) : (raiseError s code).cfgChmode = s.cfgChmode := rfl
@[simp] theorem raiseError_cfgFormat (code : ErrorCode) : (raiseError s code).cfgFormat = s.cfgFormat := rfl
@[simp] theorem raiseError_cfgSfreq (code : ErrorCode) : (raiseError s code).cfgSfreq = s.cfgSfreq := rfl
@[simp] theorem raiseError_pcmLen (code : ErrorCode) : (raiseError s code).pcmLen = s.pcmLen := rfl
@[simp] theorem raiseError_outCapacity (code : ErrorCode) : (raiseError s code).outCapacity = s.outCapacity := rfl
@[simp] theorem raiseError_mem (code : ErrorCode) : (raiseError s code).mem = s.mem := rfl
@[simp] theorem raiseError_response (code : ErrorCode) : (raiseError s code).response = some ⟨0#32, false⟩ := rfl
@[simp] theorem raiseError_inputs (code : ErrorCode) : (raiseError s code).inputs = s.inputs := rfl
@[simp] theorem raiseError_resets (code : ErrorCode) : (raiseError s code).resets = s.resets := rfl
@[simp] theorem raiseError_unitIndex (code : ErrorCode) : (raiseError s code).unitIndex = s.unitIndex := rfl

/-! ### commandDone -/

@[simp] theorem commandDone_session : (commandDone s).session = s.session := rfl
@[simp] theorem commandDone_lastError : (commandDone s).lastError = .none := rfl
@[simp] theorem commandDone_actMtu : (commandDone s).actMtu = s.actMtu := rfl
@[simp] theorem commandDone_actQuality : (commandDone s).actQuality = s.actQuality := rfl
@[simp] theorem commandDone_actChmode : (commandDone s).actChmode = s.actChmode := rfl
@[simp] theorem commandDone_actFormat : (commandDone s).actFormat = s.actFormat := rfl
@[simp] theorem commandDone_actSfreq : (commandDone s).actSfreq = s.actSfreq := rfl
@[simp] theorem commandDone_ovl0 : (commandDone s).ovl0 = s.ovl0 := rfl
@[simp] theorem commandDone_ovl1 : (commandDone s).ovl1 = s.ovl1 := rfl
@[simp] theorem commandDone_blockCount : (commandDone s).blockCount = s.blockCount := rfl
@[simp] theorem commandDone_consumed : (commandDone s).consumed = s.consumed := rfl
@[simp] theorem commandDone_frameLen : (commandDone s).frameLen = s.frameLen := rfl
@[simp] theorem commandDone_frameCount : (commandDone s).frameCount = s.frameCount := rfl
@[simp] theorem commandDone_cfgMtu : (commandDone s).cfgMtu = s.cfgMtu := rfl
@[simp] theorem commandDone_cfgQuality : (commandDone s).cfgQuality = s.cfgQuality := rfl
@[simp] theorem commandDone_cfgChmode : (commandDone s).cfgChmode = s.cfgChmode := rfl
@[simp] theorem commandDone_cfgFormat : (commandDone s).cfgFormat = s.cfgFormat := rfl
@[simp] theorem commandDone_cfgSfreq : (commandDone s).cfgSfreq = s.cfgSfreq := rfl
@[simp] theorem commandDone_pcmLen : (commandDone s).pcmLen = s.pcmLen := rfl
@[simp] theorem commandDone_outCapacity : (commandDone s).outCapacity = s.outCapacity := rfl
@[simp] theorem commandDone_mem : (commandDone s).mem = s.mem := rfl
@[simp] theorem commandDone_response : (commandDone s).response = some ⟨0#32, false⟩ := rfl
@[simp] theorem commandDone_inputs : (commandDone s).inputs = s.inputs := rfl
@[simp] theorem commandDone_resets : (commandDone s).resets = s.resets := rfl
@[simp] theorem commandDone_unitIndex : (commandDone s).unitIndex = s.unitIndex := rfl

/-! ### sessionDefaults -/

@[simp] theorem sessionDefaults_session : (sessionDefaults s).session = s.session := rfl
@[simp] theorem sessionDefaults_lastError : (sessionDefaults s).lastError = s.lastError := rfl
@[simp] theorem sessionDefaults_actMtu : (sessionDefaults s).actMtu = 0 := rfl
@[simp] theorem sessionDefaults_actQuality : (sessionDefaults s).actQuality = 0 := rfl
@[simp] theorem sessionDefaults_actChmode : (sessionDefaults s).actChmode = 0 := rfl
@[simp] theorem sessionDefaults_actFormat : (sessionDefaults s).actFormat = 0 := rfl
@[simp] theorem sessionDefaults_actSfreq : (sessionDefaults s).actSfreq = 0 := rfl
@[simp] theorem sessionDefaults_ovl0 : (sessionDefaults s).ovl0 = silence := rfl
@[simp] theorem sessionDefaults_ovl1 : (sessionDefaults s).ovl1 = silence := rfl
@[simp] theorem sessionDefaults_blockCount : (sessionDefaults s).blockCount = 0 := rfl
@[simp] theorem sessionDefaults_consumed : (sessionDefaults s).consumed = 0 := rfl
@[simp] theorem sessionDefaults_frameLen : (sessionDefaults s).frameLen = 0 := rfl
@[simp] theorem sessionDefaults_frameCount : (sessionDefaults s).frameCount = 0 := rfl
@[simp] theorem sessionDefaults_cfgMtu : (sessionDefaults s).cfgMtu = s.cfgMtu := rfl
@[simp] theorem sessionDefaults_cfgQuality : (sessionDefaults s).cfgQuality = s.cfgQuality := rfl
@[simp] theorem sessionDefaults_cfgChmode : (sessionDefaults s).cfgChmode = s.cfgChmode := rfl
@[simp] theorem sessionDefaults_cfgFormat : (sessionDefaults s).cfgFormat = s.cfgFormat := rfl
@[simp] theorem sessionDefaults_cfgSfreq : (sessionDefaults s).cfgSfreq = s.cfgSfreq := rfl
@[simp] theorem sessionDefaults_pcmLen : (sessionDefaults s).pcmLen = s.pcmLen := rfl
@[simp] theorem sessionDefaults_outCapacity : (sessionDefaults s).outCapacity = s.outCapacity := rfl
@[simp] theorem sessionDefaults_mem : (sessionDefaults s).mem = s.mem := rfl
@[simp] theorem sessionDefaults_response : (sessionDefaults s).response = s.response := rfl
@[simp] theorem sessionDefaults_inputs : (sessionDefaults s).inputs = s.inputs := rfl
@[simp] theorem sessionDefaults_resets : (sessionDefaults s).resets = s.resets := rfl
@[simp] theorem sessionDefaults_unitIndex : (sessionDefaults s).unitIndex = s.unitIndex := rfl

/-! ### storeBytes -/

@[simp] theorem storeBytes_session (a : Nat) (bytes : List Byte) : (storeBytes s a bytes).session = s.session := rfl
@[simp] theorem storeBytes_lastError (a : Nat) (bytes : List Byte) :
    (storeBytes s a bytes).lastError = s.lastError := rfl
@[simp] theorem storeBytes_actMtu (a : Nat) (bytes : List Byte) : (storeBytes s a bytes).actMtu = s.actMtu := rfl
@[simp] theorem storeBytes_actQuality (a : Nat) (bytes : List Byte) :
    (storeBytes s a bytes).actQuality = s.actQuality := rfl
@[simp] theorem storeBytes_actChmode (a : Nat) (bytes : List Byte) :
    (storeBytes s a bytes).actChmode = s.actChmode := rfl
@[simp] theorem storeBytes_actFormat (a : Nat) (bytes : List Byte) :
    (storeBytes s a bytes).actFormat = s.actFormat := rfl
@[simp] theorem storeBytes_actSfreq (a : Nat) (bytes : List Byte) :
    (storeBytes s a bytes).actSfreq = s.actSfreq := rfl
@[simp] theorem storeBytes_ovl0 (a : Nat) (bytes : List Byte) : (storeBytes s a bytes).ovl0 = s.ovl0 := rfl
@[simp] theorem storeBytes_ovl1 (a : Nat) (bytes : List Byte) : (storeBytes s a bytes).ovl1 = s.ovl1 := rfl
@[simp] theorem storeBytes_blockCount (a : Nat) (bytes : List Byte) :
    (storeBytes s a bytes).blockCount = s.blockCount := rfl
@[simp] theorem storeBytes_consumed (a : Nat) (bytes : List Byte) :
    (storeBytes s a bytes).consumed = s.consumed := rfl
@[simp] theorem storeBytes_frameLen (a : Nat) (bytes : List Byte) :
    (storeBytes s a bytes).frameLen = s.frameLen := rfl
@[simp] theorem storeBytes_frameCount (a : Nat) (bytes : List Byte) :
    (storeBytes s a bytes).frameCount = s.frameCount := rfl
@[simp] theorem storeBytes_cfgMtu (a : Nat) (bytes : List Byte) : (storeBytes s a bytes).cfgMtu = s.cfgMtu := rfl
@[simp] theorem storeBytes_cfgQuality (a : Nat) (bytes : List Byte) :
    (storeBytes s a bytes).cfgQuality = s.cfgQuality := rfl
@[simp] theorem storeBytes_cfgChmode (a : Nat) (bytes : List Byte) :
    (storeBytes s a bytes).cfgChmode = s.cfgChmode := rfl
@[simp] theorem storeBytes_cfgFormat (a : Nat) (bytes : List Byte) :
    (storeBytes s a bytes).cfgFormat = s.cfgFormat := rfl
@[simp] theorem storeBytes_cfgSfreq (a : Nat) (bytes : List Byte) :
    (storeBytes s a bytes).cfgSfreq = s.cfgSfreq := rfl
@[simp] theorem storeBytes_pcmLen (a : Nat) (bytes : List Byte) : (storeBytes s a bytes).pcmLen = s.pcmLen := rfl
@[simp] theorem storeBytes_outCapacity (a : Nat) (bytes : List Byte) :
    (storeBytes s a bytes).outCapacity = s.outCapacity := rfl
@[simp] theorem storeBytes_mem (a : Nat) (bytes : List Byte) :
    (storeBytes s a bytes).mem = s.mem.writeBytes a bytes := rfl
@[simp] theorem storeBytes_response (a : Nat) (bytes : List Byte) :
    (storeBytes s a bytes).response = s.response := rfl
@[simp] theorem storeBytes_inputs (a : Nat) (bytes : List Byte) : (storeBytes s a bytes).inputs = s.inputs := rfl
@[simp] theorem storeBytes_resets (a : Nat) (bytes : List Byte) : (storeBytes s a bytes).resets = s.resets := rfl
@[simp] theorem storeBytes_unitIndex (a : Nat) (bytes : List Byte) : (storeBytes s a bytes).unitIndex = s.unitIndex := rfl

/-! ### storeWord -/

@[simp] theorem storeWord_session (a : Nat) (v : Word) : (storeWord s a v).session = s.session := rfl
@[simp] theorem storeWord_lastError (a : Nat) (v : Word) : (storeWord s a v).lastError = s.lastError := rfl
@[simp] theorem storeWord_actMtu (a : Nat) (v : Word) : (storeWord s a v).actMtu = s.actMtu := rfl
@[simp] theorem storeWord_actQuality (a : Nat) (v : Word) : (storeWord s a v).actQuality = s.actQuality := rfl
@[simp] theorem storeWord_actChmode (a : Nat) (v : Word) : (storeWord s a v).actChmode = s.actChmode := rfl
@[simp] theorem storeWord_actFormat (a : Nat) (v : Word) : (storeWord s a v).actFormat = s.actFormat := rfl
@[simp] theorem storeWord_actSfreq (a : Nat) (v : Word) : (storeWord s a v).actSfreq = s.actSfreq := rfl
@[simp] theorem storeWord_ovl0 (a : Nat) (v : Word) : (storeWord s a v).ovl0 = s.ovl0 := rfl
@[simp] theorem storeWord_ovl1 (a : Nat) (v : Word) : (storeWord s a v).ovl1 = s.ovl1 := rfl
@[simp] theorem storeWord_blockCount (a : Nat) (v : Word) : (storeWord s a v).blockCount = s.blockCount := rfl
@[simp] theorem storeWord_consumed (a : Nat) (v : Word) : (storeWord s a v).consumed = s.consumed := rfl
@[simp] theorem storeWord_frameLen (a : Nat) (v : Word) : (storeWord s a v).frameLen = s.frameLen := rfl
@[simp] theorem storeWord_frameCount (a : Nat) (v : Word) : (storeWord s a v).frameCount = s.frameCount := rfl
@[simp] theorem storeWord_cfgMtu (a : Nat) (v : Word) : (storeWord s a v).cfgMtu = s.cfgMtu := rfl
@[simp] theorem storeWord_cfgQuality (a : Nat) (v : Word) : (storeWord s a v).cfgQuality = s.cfgQuality := rfl
@[simp] theorem storeWord_cfgChmode (a : Nat) (v : Word) : (storeWord s a v).cfgChmode = s.cfgChmode := rfl
@[simp] theorem storeWord_cfgFormat (a : Nat) (v : Word) : (storeWord s a v).cfgFormat = s.cfgFormat := rfl
@[simp] theorem storeWord_cfgSfreq (a : Nat) (v : Word) : (storeWord s a v).cfgSfreq = s.cfgSfreq := rfl
@[simp] theorem storeWord_pcmLen (a : Nat) (v : Word) : (storeWord s a v).pcmLen = s.pcmLen := rfl
@[simp] theorem storeWord_outCapacity (a : Nat) (v : Word) : (storeWord s a v).outCapacity = s.outCapacity := rfl
@[simp] theorem storeWord_mem (a : Nat) (v : Word) : (storeWord s a v).mem = s.mem.writeBytes a (bytesOfWord v) := rfl
@[simp] theorem storeWord_response (a : Nat) (v : Word) : (storeWord s a v).response = s.response := rfl
@[simp] theorem storeWord_inputs (a : Nat) (v : Word) : (storeWord s a v).inputs = s.inputs := rfl
@[simp] theorem storeWord_resets (a : Nat) (v : Word) : (storeWord s a v).resets = s.resets := rfl
@[simp] theorem storeWord_unitIndex (a : Nat) (v : Word) : (storeWord s a v).unitIndex = s.unitIndex := rfl

/-! ### idle -/

@[simp] theorem idle_session : (idle s).session = s.session := rfl
@[simp] theorem idle_lastError : (idle s).lastError = s.lastError := rfl
@[simp] theorem idle_actMtu : (idle s).actMtu = s.actMtu := rfl
@[simp] theorem idle_actQuality : (idle s).actQuality = s.actQuality := rfl
@[simp] theorem idle_actChmode : (idle s).actChmode = s.actChmode := rfl
@[simp] theorem idle_actFormat : (idle s).actFormat = s.actFormat := rfl
@[simp] theorem idle_actSfreq : (idle s).actSfreq = s.actSfreq := rfl
@[simp] theorem idle_ovl0 : (idle s).ovl0 = s.ovl0 := rfl
@[simp] theorem idle_ovl1 : (idle s).ovl1 = s.ovl1 := rfl
@[simp] theorem idle_blockCount : (idle s).blockCount = s.blockCount := rfl
@[simp] theorem idle_consumed : (idle s).consumed = s.consumed := rfl
@[simp] theorem idle_frameLen : (idle s).frameLen = s.frameLen := rfl
@[simp] theorem idle_frameCount : (idle s).frameCount = s.frameCount := rfl
@[simp] theorem idle_cfgMtu : (idle s).cfgMtu = s.cfgMtu := rfl
@[simp] theorem idle_cfgQuality : (idle s).cfgQuality = s.cfgQuality := rfl
@[simp] theorem idle_cfgChmode : (idle s).cfgChmode = s.cfgChmode := rfl
@[simp] theorem idle_cfgFormat : (idle s).cfgFormat = s.cfgFormat := rfl
@[simp] theorem idle_cfgSfreq : (idle s).cfgSfreq = s.cfgSfreq := rfl
@[simp] theorem idle_pcmLen : (idle s).pcmLen = s.pcmLen := rfl
@[simp] theorem idle_outCapacity : (idle s).outCapacity = s.outCapacity := rfl
@[simp] theorem idle_mem : (idle s).mem = s.mem := rfl
@[simp] theorem idle_response : (idle s).response = none := rfl
@[simp] theorem idle_inputs : (idle s).inputs = s.inputs := rfl
@[simp] theorem idle_resets : (idle s).resets = s.resets := rfl
@[simp] theorem idle_unitIndex : (idle s).unitIndex = s.unitIndex := rfl

/-! ### takeInput -/

@[simp] theorem takeInput_session (rest : List PortEvent) : (takeInput s rest).session = s.session := rfl
@[simp] theorem takeInput_lastError (rest : List PortEvent) : (takeInput s rest).lastError = s.lastError := rfl
@[simp] theorem takeInput_actMtu (rest : List PortEvent) : (takeInput s rest).actMtu = s.actMtu := rfl
@[simp] theorem takeInput_actQuality (rest : List PortEvent) : (takeInput s rest).actQuality = s.actQuality := rfl
@[simp] theorem takeInput_actChmode (rest : List PortEvent) : (takeInput s rest).actChmode = s.actChmode := rfl
@[simp] theorem takeInput_actFormat (rest : List PortEvent) : (takeInput s rest).actFormat = s.actFormat := rfl
@[simp] theorem takeInput_actSfreq (rest : List PortEvent) : (takeInput s rest).actSfreq = s.actSfreq := rfl
@[simp] theorem takeInput_ovl0 (rest : List PortEvent) : (takeInput s rest).ovl0 = s.ovl0 := rfl
@[simp] theorem takeInput_ovl1 (rest : List PortEvent) : (takeInput s rest).ovl1 = s.ovl1 := rfl
@[simp] theorem takeInput_blockCount (rest : List PortEvent) : (takeInput s rest).blockCount = s.blockCount := rfl
@[simp] theorem takeInput_consumed (rest : List PortEvent) : (takeInput s rest).consumed = s.consumed := rfl
@[simp] theorem takeInput_frameLen (rest : List PortEvent) : (takeInput s rest).frameLen = s.frameLen := rfl
@[simp] theorem takeInput_frameCount (rest : List PortEvent) : (takeInput s rest).frameCount = s.frameCount := rfl
@[simp] theorem takeInput_cfgMtu (rest : List PortEvent) : (takeInput s rest).cfgMtu = s.cfgMtu := rfl
@[simp] theorem takeInput_cfgQuality (rest : List PortEvent) : (takeInput s rest).cfgQuality = s.cfgQuality := rfl
@[simp] theorem takeInput_cfgChmode (rest : List PortEvent) : (takeInput s rest).cfgChmode = s.cfgChmode := rfl
@[simp] theorem takeInput_cfgFormat (rest : List PortEvent) : (takeInput s rest).cfgFormat = s.cfgFormat := rfl
@[simp] theorem takeInput_cfgSfreq (rest : List PortEvent) : (takeInput s rest).cfgSfreq = s.cfgSfreq := rfl
@[simp] theorem takeInput_pcmLen (rest : List PortEvent) : (takeInput s rest).pcmLen = s.pcmLen := rfl
@[simp] theorem takeInput_outCapacity (rest : List PortEvent) : (takeInput s rest).outCapacity = s.outCapacity := rfl
@[simp] theorem takeInput_mem (rest : List PortEvent) : (takeInput s rest).mem = s.mem := rfl
@[simp] theorem takeInput_response (rest : List PortEvent) : (takeInput s rest).response = s.response := rfl
@[simp] theorem takeInput_inputs (rest : List PortEvent) : (takeInput s rest).inputs = rest := rfl
@[simp] theorem takeInput_resets (rest : List PortEvent) : (takeInput s rest).resets = s.resets := rfl
@[simp] theorem takeInput_unitIndex (rest : List PortEvent) : (takeInput s rest).unitIndex = s.unitIndex := rfl

/-! ### hardwareReset -/

@[simp] theorem hardwareReset_session : (hardwareReset s).session = State.reset.session := rfl
@[simp] theorem hardwareReset_lastError : (hardwareReset s).lastError = State.reset.lastError := rfl
@[simp] theorem hardwareReset_actMtu : (hardwareReset s).actMtu = State.reset.actMtu := rfl
@[simp] theorem hardwareReset_actQuality : (hardwareReset s).actQuality = State.reset.actQuality := rfl
@[simp] theorem hardwareReset_actChmode : (hardwareReset s).actChmode = State.reset.actChmode := rfl
@[simp] theorem hardwareReset_actFormat : (hardwareReset s).actFormat = State.reset.actFormat := rfl
@[simp] theorem hardwareReset_actSfreq : (hardwareReset s).actSfreq = State.reset.actSfreq := rfl
@[simp] theorem hardwareReset_ovl0 : (hardwareReset s).ovl0 = State.reset.ovl0 := rfl
@[simp] theorem hardwareReset_ovl1 : (hardwareReset s).ovl1 = State.reset.ovl1 := rfl
@[simp] theorem hardwareReset_blockCount : (hardwareReset s).blockCount = State.reset.blockCount := rfl
@[simp] theorem hardwareReset_consumed : (hardwareReset s).consumed = State.reset.consumed := rfl
@[simp] theorem hardwareReset_frameLen : (hardwareReset s).frameLen = State.reset.frameLen := rfl
@[simp] theorem hardwareReset_frameCount : (hardwareReset s).frameCount = State.reset.frameCount := rfl
@[simp] theorem hardwareReset_cfgMtu : (hardwareReset s).cfgMtu = State.reset.cfgMtu := rfl
@[simp] theorem hardwareReset_cfgQuality : (hardwareReset s).cfgQuality = State.reset.cfgQuality := rfl
@[simp] theorem hardwareReset_cfgChmode : (hardwareReset s).cfgChmode = State.reset.cfgChmode := rfl
@[simp] theorem hardwareReset_cfgFormat : (hardwareReset s).cfgFormat = State.reset.cfgFormat := rfl
@[simp] theorem hardwareReset_cfgSfreq : (hardwareReset s).cfgSfreq = State.reset.cfgSfreq := rfl
@[simp] theorem hardwareReset_pcmLen : (hardwareReset s).pcmLen = State.reset.pcmLen := rfl
@[simp] theorem hardwareReset_outCapacity : (hardwareReset s).outCapacity = State.reset.outCapacity := rfl
@[simp] theorem hardwareReset_mem : (hardwareReset s).mem = State.reset.mem := rfl
@[simp] theorem hardwareReset_response : (hardwareReset s).response = State.reset.response := rfl
@[simp] theorem hardwareReset_inputs : (hardwareReset s).inputs = s.inputs := rfl
@[simp] theorem hardwareReset_resets : (hardwareReset s).resets = s.resets + 1 := rfl
@[simp] theorem hardwareReset_unitIndex : (hardwareReset s).unitIndex = s.unitIndex := rfl

/-! ### configureCommit -/

@[simp] theorem configureCommit_session : (configureCommit s).session = .ready := rfl
@[simp] theorem configureCommit_lastError : (configureCommit s).lastError = s.lastError := rfl
@[simp] theorem configureCommit_actMtu : (configureCommit s).actMtu = s.cfgMtu := rfl
@[simp] theorem configureCommit_actQuality : (configureCommit s).actQuality = s.cfgQuality := rfl
@[simp] theorem configureCommit_actChmode : (configureCommit s).actChmode = s.cfgChmode := rfl
@[simp] theorem configureCommit_actFormat : (configureCommit s).actFormat = s.cfgFormat := rfl
@[simp] theorem configureCommit_actSfreq : (configureCommit s).actSfreq = s.cfgSfreq := rfl
@[simp] theorem configureCommit_ovl0 : (configureCommit s).ovl0 = silence := rfl
@[simp] theorem configureCommit_ovl1 : (configureCommit s).ovl1 = silence := rfl
@[simp] theorem configureCommit_blockCount : (configureCommit s).blockCount = 0 := rfl
@[simp] theorem configureCommit_consumed : (configureCommit s).consumed = s.consumed := rfl
@[simp] theorem configureCommit_frameLen : (configureCommit s).frameLen = s.frameLen := rfl
@[simp] theorem configureCommit_frameCount : (configureCommit s).frameCount = s.frameCount := rfl
@[simp] theorem configureCommit_cfgMtu : (configureCommit s).cfgMtu = s.cfgMtu := rfl
@[simp] theorem configureCommit_cfgQuality : (configureCommit s).cfgQuality = s.cfgQuality := rfl
@[simp] theorem configureCommit_cfgChmode : (configureCommit s).cfgChmode = s.cfgChmode := rfl
@[simp] theorem configureCommit_cfgFormat : (configureCommit s).cfgFormat = s.cfgFormat := rfl
@[simp] theorem configureCommit_cfgSfreq : (configureCommit s).cfgSfreq = s.cfgSfreq := rfl
@[simp] theorem configureCommit_pcmLen : (configureCommit s).pcmLen = s.pcmLen := rfl
@[simp] theorem configureCommit_outCapacity : (configureCommit s).outCapacity = s.outCapacity := rfl
@[simp] theorem configureCommit_mem : (configureCommit s).mem = s.mem := rfl
@[simp] theorem configureCommit_response : (configureCommit s).response = s.response := rfl
@[simp] theorem configureCommit_inputs : (configureCommit s).inputs = s.inputs := rfl
@[simp] theorem configureCommit_resets : (configureCommit s).resets = s.resets := rfl
@[simp] theorem configureCommit_unitIndex : (configureCommit s).unitIndex = s.unitIndex := rfl

/-! ### encodeCommit -/

@[simp] theorem encodeCommit_session (c : Config) : (encodeCommit c s).session = .encoding := rfl
@[simp] theorem encodeCommit_lastError (c : Config) : (encodeCommit c s).lastError = s.lastError := rfl
@[simp] theorem encodeCommit_actMtu (c : Config) : (encodeCommit c s).actMtu = s.actMtu := rfl
@[simp] theorem encodeCommit_actQuality (c : Config) : (encodeCommit c s).actQuality = s.actQuality := rfl
@[simp] theorem encodeCommit_actChmode (c : Config) : (encodeCommit c s).actChmode = s.actChmode := rfl
@[simp] theorem encodeCommit_actFormat (c : Config) : (encodeCommit c s).actFormat = s.actFormat := rfl
@[simp] theorem encodeCommit_actSfreq (c : Config) : (encodeCommit c s).actSfreq = s.actSfreq := rfl
@[simp] theorem encodeCommit_ovl0 (c : Config) : (encodeCommit c s).ovl0 = newOverlap c s (nch c s.actChmode) 0 := rfl
@[simp] theorem encodeCommit_ovl1 (c : Config) :
    (encodeCommit c s).ovl1 = if 1 < nch c s.actChmode then newOverlap c s (nch c s.actChmode) 1 else s.ovl1 := rfl
@[simp] theorem encodeCommit_blockCount (c : Config) : (encodeCommit c s).blockCount = s.blockCount + 1 := rfl
@[simp] theorem encodeCommit_consumed (c : Config) :
    (encodeCommit c s).consumed = BitVec.ofNat 32 (256 * nch c s.actChmode) := rfl
@[simp] theorem encodeCommit_frameLen (c : Config) :
    (encodeCommit c s).frameLen = BitVec.ofNat 32 (3 + payloadBytes c s.actQuality) := rfl
@[simp] theorem encodeCommit_frameCount (c : Config) : (encodeCommit c s).frameCount = 1 := rfl
@[simp] theorem encodeCommit_cfgMtu (c : Config) : (encodeCommit c s).cfgMtu = s.cfgMtu := rfl
@[simp] theorem encodeCommit_cfgQuality (c : Config) : (encodeCommit c s).cfgQuality = s.cfgQuality := rfl
@[simp] theorem encodeCommit_cfgChmode (c : Config) : (encodeCommit c s).cfgChmode = s.cfgChmode := rfl
@[simp] theorem encodeCommit_cfgFormat (c : Config) : (encodeCommit c s).cfgFormat = s.cfgFormat := rfl
@[simp] theorem encodeCommit_cfgSfreq (c : Config) : (encodeCommit c s).cfgSfreq = s.cfgSfreq := rfl
@[simp] theorem encodeCommit_pcmLen (c : Config) : (encodeCommit c s).pcmLen = s.pcmLen := rfl
@[simp] theorem encodeCommit_outCapacity (c : Config) : (encodeCommit c s).outCapacity = s.outCapacity := rfl
@[simp] theorem encodeCommit_mem (c : Config) :
    (encodeCommit c s).mem = s.mem.writeBytes frameBase (encodeFrame c s) := rfl
@[simp] theorem encodeCommit_response (c : Config) : (encodeCommit c s).response = s.response := rfl
@[simp] theorem encodeCommit_inputs (c : Config) : (encodeCommit c s).inputs = s.inputs := rfl
@[simp] theorem encodeCommit_resets (c : Config) : (encodeCommit c s).resets = s.resets := rfl
@[simp] theorem encodeCommit_unitIndex (c : Config) : (encodeCommit c s).unitIndex = s.unitIndex := rfl

end Sys2Proof.Machine
end

