-- ==== Sys2Proof/Laws/Memory.lean ====
section
/-! SUPPORT. What the memory operations do: a read after a write, the canonical form kept, and what a store does to
every byte of the state. -/

namespace Sys2Proof.Machine

/-- A read gives the byte written, and every other offset reads as before (R67, R71). -/
theorem Memory.read_write (m : Memory) (a b : Nat) (v : Byte) :
    (m.write a v).read b = if b = a then some v else m.read b := by
  induction m with
  | nil => simp [Memory.write, Memory.read]
  | cons cell rest ih =>
    obtain ⟨c, w⟩ := cell
    simp only [Memory.write]
    split
    · simp only [Memory.read]
    · split
      · subst a; by_cases hb : b = c <;> simp [Memory.read, hb]
      · simp only [Memory.read, ih]
        by_cases hb : b = a
        · subst hb; simp_all
        · simp [hb]

/-- The whole effect of a run of bytes. -/
theorem Memory.read_writeBytes (m : Memory) (a b : Nat) (bytes : List Byte) :
    (m.writeBytes a bytes).read b =
      if a ≤ b ∧ b < a + bytes.length then bytes[b - a]? else m.read b := by
  induction bytes generalizing m a with
  | nil =>
    rw [if_neg (by simp only [List.length_nil]; omega)]
    rfl
  | cons v rest ih =>
    rw [Memory.writeBytes, ih, Memory.read_write, List.length_cons]
    by_cases h1 : a + 1 ≤ b ∧ b < a + 1 + rest.length
    · rw [if_pos h1, if_pos (by omega), show b - a = (b - (a + 1)) + 1 by omega, List.getElem?_cons_succ]
    · rw [if_neg h1]
      by_cases hb : b = a
      · subst hb; rw [if_pos rfl, if_pos (by omega)]; simp
      · rw [if_neg hb, if_neg (by omega)]

/-- A write rises from the lower of the old bound and the written offset. -/
theorem Memory.risesFrom_write (m : Memory) (lo a : Nat) (v : Byte) (hlo : lo ≤ a)
    (h : Memory.risesFrom lo m = true) : Memory.risesFrom lo (m.write a v) = true := by
  induction m generalizing lo with
  | nil => simpa [Memory.write, Memory.risesFrom] using hlo
  | cons cell rest ih =>
    obtain ⟨c, w⟩ := cell
    simp only [Memory.risesFrom, Bool.and_eq_true, decide_eq_true_eq] at h
    simp only [Memory.write]
    split
    · simp only [Memory.risesFrom, Bool.and_eq_true, decide_eq_true_eq]
      exact ⟨hlo, by omega, h.2⟩
    · split
      · subst a; simp only [Memory.risesFrom, Bool.and_eq_true, decide_eq_true_eq]; exact h
      · simp only [Memory.risesFrom, Bool.and_eq_true, decide_eq_true_eq]
        exact ⟨h.1, ih (c + 1) (by omega) h.2⟩

theorem Memory.all_write (m : Memory) (a : Nat) (v : Byte) (p : Host.Cell → Bool)
    (ha : p (a, v) = true) (h : m.all p = true) : (m.write a v).all p = true := by
  induction m with
  | nil => simpa [Memory.write] using ha
  | cons cell rest ih =>
    obtain ⟨c, w⟩ := cell
    simp only [List.all_cons, Bool.and_eq_true] at h
    simp only [Memory.write]
    split
    · simp [ha, h]
    · split
      · simp [ha, h]
      · simp only [List.all_cons, Bool.and_eq_true]; exact ⟨h.1, ih h.2⟩

/-- A write to a buffer byte keeps the canonical form. -/
theorem Memory.wf_write (m : Memory) (a : Nat) (v : Byte) (ha : (inPcmBuf a || inFrameBuf a) = true)
    (h : m.wf = true) : (m.write a v).wf = true := by
  simp only [Memory.wf, Bool.and_eq_true] at h ⊢
  exact ⟨Memory.risesFrom_write m 0 a v (Nat.zero_le a) h.1, Memory.all_write m a v _ ha h.2⟩

/-- Writes to buffer bytes keep the canonical form. -/
theorem Memory.wf_writeBytes (m : Memory) (a : Nat) (bytes : List Byte)
    (ha : ∀ b, a ≤ b → b < a + bytes.length → (inPcmBuf b || inFrameBuf b) = true)
    (h : m.wf = true) : (m.writeBytes a bytes).wf = true := by
  induction bytes generalizing m a with
  | nil => exact h
  | cons v rest ih =>
    rw [Memory.writeBytes]
    rw [List.length_cons] at ha
    exact ih _ _ (fun b h1 h2 => ha b (by omega) (by omega))
      (Memory.wf_write m a v (ha a (by omega) (by omega)) h)

/-- Two states of one block whose memory reads alike at `a`, after as many resets, hold the same byte there. -/
theorem byteAt_congr {s t : State} {a : Nat} (hm : s.mem.read a = t.mem.read a) (hr : s.resets = t.resets)
    (hu : s.unitIndex = t.unitIndex) : byteAt s a = byteAt t a := by
  simp only [byteAt, hm, hr, hu]

/-- What a store does to every byte: the stored run, and everything else as before. -/
theorem byteAt_storeBytes (s : State) (a b : Nat) (bytes : List Byte) :
    byteAt (storeBytes s a bytes) b =
      if a ≤ b ∧ b < a + bytes.length then bytes.getD (b - a) 0 else byteAt s b := by
  simp only [byteAt, storeBytes_mem, storeBytes_resets, storeBytes_unitIndex, Memory.read_writeBytes]
  by_cases h : a ≤ b ∧ b < a + bytes.length
  · rw [if_pos h, if_pos h, List.getElem?_eq_getElem (by omega), List.getD_eq_getElem _ _ (by omega)]
  · rw [if_neg h, if_neg h]

theorem bytesOfWord_length (v : Word) : (bytesOfWord v).length = 4 := rfl

/-- Splitting a word into bytes and joining them again gives the word (R63). -/
theorem wordOfBytes_bytesOfWord (v : Word) :
    wordOfBytes (v.extractLsb' 0 8) (v.extractLsb' 8 8) (v.extractLsb' 16 8) (v.extractLsb' 24 8) = v := by
  apply BitVec.eq_of_getLsbD_eq
  intro i hi
  simp only [wordOfBytes, BitVec.getLsbD_append, BitVec.getLsbD_extractLsb']
  by_cases h8 : i < 8
  · simp [h8, show i < 24 by omega, show i < 16 by omega]
  · by_cases h16 : i < 16
    · simp [h8, h16, show i < 24 by omega, show 8 + (i - 8) = i by omega, show i - 8 < 8 by omega]
    · by_cases h24 : i < 24
      · simp [h16, h24, show i - 16 < 8 by omega, show 16 + (i - 16) = i by omega]
      · simp [h24, show i - 24 < 8 by omega, show 24 + (i - 24) = i by omega]

/-- What a word store does to every byte (R67). -/
theorem byteAt_storeWord (s : State) (a b : Nat) (v : Word) :
    byteAt (storeWord s a v) b =
      if a ≤ b ∧ b < a + 4 then (bytesOfWord v).getD (b - a) 0 else byteAt s b :=
  byteAt_storeBytes s a b (bytesOfWord v)

/-- A word read gives the word stored there (R71). -/
theorem wordAt_storeWord (s : State) (a : Nat) (v : Word) : wordAt (storeWord s a v) a = v := by
  simp only [wordAt, byteAt_storeWord]
  simp only [show a ≤ a ∧ a < a + 4 by omega, show a ≤ a + 1 ∧ a + 1 < a + 4 by omega,
    show a ≤ a + 2 ∧ a + 2 < a + 4 by omega, show a ≤ a + 3 ∧ a + 3 < a + 4 by omega,
    show a - a = 0 by omega, show a + 1 - a = 1 by omega, show a + 2 - a = 2 by omega, show a + 3 - a = 3 by omega]
  exact wordOfBytes_bytesOfWord v

end Sys2Proof.Machine
end

