-- ==== Sys2Proof/Laws/Commands.lean ====
section
/-! SUPPORT. What the shared operations of the commands can do, said once: the dead-state gate, the admission of
CONFIGURE and ENCODE, the two ways a command ends, and the bytes a successful ENCODE writes. -/

namespace Sys2Proof.Machine

/-! ### The LEP-1.0 values -/

@[simp] theorem lep10_qHigh : lep10.qHigh = 0#32 := rfl
@[simp] theorem lep10_qStandard : lep10.qStandard = 1#32 := rfl
@[simp] theorem lep10_qMobile : lep10.qMobile = 2#32 := rfl
@[simp] theorem lep10_cmStereo : lep10.cmStereo = 0#32 := rfl
@[simp] theorem lep10_cmDual : lep10.cmDual = 1#32 := rfl
@[simp] theorem lep10_cmMono : lep10.cmMono = 2#32 := rfl
@[simp] theorem lep10_fmtS16 : lep10.fmtS16 = 0#32 := rfl
@[simp] theorem lep10_fmtS24 : lep10.fmtS24 = 1#32 := rfl
@[simp] theorem lep10_fmtS32 : lep10.fmtS32 = 2#32 := rfl
@[simp] theorem lep10_fmtF32 : lep10.fmtF32 = 3#32 := rfl
@[simp] theorem lep10_capMin (p : Nat) : lep10.capMin p = 3 + p := rfl
@[simp] theorem lep10_ofSample : lep10.ofSample = f32OfSample := rfl
@[simp] theorem lep10_win : lep10.win = win := rfl
@[simp] theorem lep10_bas : lep10.bas = bas := rfl
@[simp] theorem lep10_transform : lep10.transform = transformWith := by rw [lep10]
@[simp] theorem lep10_nchStereo : lep10.nchStereo = 2 := rfl
@[simp] theorem lep10_nchDual : lep10.nchDual = 2 := rfl
@[simp] theorem lep10_nchMono : lep10.nchMono = 1 := rfl
@[simp] theorem lep10_quantize : lep10.quantize = quantize := rfl
@[simp] theorem lep10_padByte : lep10.padByte = 0#8 := rfl

/-! ### The dead-state gate (R93, R125) -/

theorem inLiveState_dead {s : State} (run : State → State) (h : isDead s.session = true) :
    inLiveState s run = raiseError s .fatal := by
  simp [inLiveState, h]

theorem inLiveState_live {s : State} (run : State → State) (h : isDead s.session = false) :
    inLiveState s run = run s := by
  simp [inLiveState, h]

/-- A configured session is live. -/
theorem isDead_of_configured {q : SessionState} (h : isConfigured q = true) : isDead q = false := by
  cases q <;> simp_all [isDead, isConfigured]

/-! ### Operands -/

/-- The frame never leaves FRAME_BUF (R77), whatever the quality word. -/
theorem payloadBytes_le (c : Config) (q : Word) : payloadBytes c q ≤ 333 := by
  simp only [payloadBytes]
  have := (Config.payloadBytesUnstated q).isLt
  split
  · omega
  · split
    · omega
    · split <;> omega

/-- In LEP-1.0 nch is 1 for Mono and 2 for everything else, as R141 writes it. -/
theorem nch_lep10 (m : Word) : nch lep10 m = if m = 2#32 then 1 else 2 := by
  simp only [nch, lep10_cmMono, lep10_nchMono, lep10_nchDual, lep10_nchStereo, ite_self]

theorem nch_cases (m : Word) : nch lep10 m = 1 ∨ nch lep10 m = 2 := by
  rw [nch_lep10]; split <;> simp

/-- In LEP-1.0 a coefficient is R176's transform of the channel's analysis input. -/
theorem coefficient_lep10 (s : State) (channels channel k : Nat) :
    coefficient lep10 s channels channel k = transform (analysisInput lep10 s channels channel) k := by
  rw [coefficient, lep10_transform, lep10_win, lep10_bas, transform]

theorem encodeFrame_length (c : Config) (s : State) :
    (encodeFrame c s).length = 3 + payloadBytes c s.actQuality := by
  simp only [encodeFrame, frameBytes, payload, List.length_cons, List.length_map, List.length_range]
  omega

/-! ### CONFIGURE -/

/-- In a live state CONFIGURE either commits, from Uninitialized with a valid staging configuration, or raises
IllegalParameter (R113, R114, R116). -/
theorem configureLive_eq (c : Config) (s : State) :
    configureLive c s =
      if s.session = .uninitialized ∧ configValid c s = true then commandDone (configureCommit s)
      else raiseError s .illegalParameter := by
  simp only [configureLive]
  by_cases h1 : s.session = .uninitialized <;> by_cases h2 : configValid c s = true <;> simp [h1, h2]

/-! ### ENCODE -/

/-- In a live state ENCODE either commits, where all four checks of R141 pass, or raises IllegalParameter. -/
theorem encodeLive_eq (c : Config) (s : State) :
    encodeLive c s =
      if isConfigured s.session = true ∧ s.actFormat = c.fmtS16 ∧
          s.pcmLen = BitVec.ofNat 32 (256 * nch c s.actChmode) ∧
          c.capMin (payloadBytes c s.actQuality) ≤ s.outCapacity.toNat
      then commandDone (encodeCommit c s) else raiseError s .illegalParameter := by
  simp only [encodeLive]
  by_cases h1 : isConfigured s.session = true
  · by_cases h2 : s.actFormat = c.fmtS16
    · by_cases h3 : s.pcmLen = BitVec.ofNat 32 (256 * nch c s.actChmode)
      · by_cases h4 : c.capMin (payloadBytes c s.actQuality) ≤ s.outCapacity.toNat
        · simp [h1, h2, h3, Nat.not_lt.mpr h4, h4]
        · simp [h1, h2, h3, Nat.lt_of_not_le h4, h4]
      · simp [h1, h2, h3]
    · simp [h1, h2]
  · simp [h1]

/-- `State.admitsEncode` is the condition of `encodeLive_eq` at the LEP-1.0 values. -/
theorem admitsEncode_iff (s : State) :
    s.admitsEncode ↔ isConfigured s.session = true ∧ s.actFormat = lep10.fmtS16 ∧
      s.pcmLen = BitVec.ofNat 32 (256 * nch lep10 s.actChmode) ∧
      lep10.capMin (payloadBytes lep10 s.actQuality) ≤ s.outCapacity.toNat := by
  have h1 : (s.session = .ready ∨ s.session = .encoding) ↔ isConfigured s.session = true := by
    cases s.session <;> simp [isConfigured]
  have h2 : (if s.actChmode = 2 then (256 : Word) else 512) = BitVec.ofNat 32 (256 * nch lep10 s.actChmode) := by
    rw [nch_lep10]; by_cases h : s.actChmode = 2#32 <;> simp [h]
  rw [State.admitsEncode, h1, h2]
  rfl

/-- An admitted ENCODE commits. -/
theorem execEncode_admitted {s : State} (h : s.admitsEncode) :
    execEncode s = .next (commandDone (encodeCommit lep10 s)) := by
  have h' := (admitsEncode_iff s).mp h
  rw [execEncode, inLiveState_live _ (isDead_of_configured h'.1), encodeLive_eq, if_pos h']

/-- An ENCODE that is not admitted, in a live state, raises IllegalParameter. -/
theorem execEncode_refused {s : State} (hl : isDead s.session = false) (h : ¬ s.admitsEncode) :
    execEncode s = .next (raiseError s .illegalParameter) := by
  rw [admitsEncode_iff] at h
  rw [execEncode, inLiveState_live _ hl, encodeLive_eq, if_neg h]

/-- What a successful ENCODE does to every byte of the two buffers: the frame's bytes, and nothing else (R205). -/
theorem byteAt_encodeCommit (c : Config) (s : State) (b : Nat) :
    byteAt (commandDone (encodeCommit c s)) b =
      if frameBase ≤ b ∧ b < frameBase + (3 + payloadBytes c s.actQuality) then
        (encodeFrame c s).getD (b - frameBase) 0
      else byteAt s b := by
  have h := byteAt_storeBytes s frameBase b (encodeFrame c s)
  rw [encodeFrame_length] at h
  rw [← h]
  exact byteAt_congr (by simp) (by simp) (by simp)

/-! ### The two ways a command ends (R24, R224) -/

/-- A command either raises an error on the state as it stands or ends successfully. -/
theorem exec_command_cases {i : Instr} (hc : isCommand i = true) (s : State) :
    (∃ code, (code = .fatal ∨ code = .illegalParameter) ∧ exec i s = .next (raiseError s code)) ∨
    (∃ u, exec i s = .next (commandDone u)) := by
  have gate : ∀ run : State → State,
      ((∃ u, run s = commandDone u) ∨ run s = raiseError s .illegalParameter) →
      (∃ code, (code = ErrorCode.fatal ∨ code = .illegalParameter) ∧
        (Host.Outcome.next (inLiveState s run) : Host.Outcome State Fault Refusal) = .next (raiseError s code)) ∨
      (∃ u, (Host.Outcome.next (inLiveState s run) : Host.Outcome State Fault Refusal) = .next (commandDone u)) := by
    intro run h
    by_cases hd : isDead s.session = true
    · exact Or.inl ⟨.fatal, Or.inl rfl, by rw [inLiveState_dead _ hd]⟩
    · rw [inLiveState_live _ (by simpa using hd)]
      rcases h with ⟨u, hu⟩ | hu
      · exact Or.inr ⟨u, by rw [hu]⟩
      · exact Or.inl ⟨.illegalParameter, Or.inr rfl, by rw [hu]⟩
  cases i <;> simp only [isCommand, Bool.false_eq_true] at hc
  case create => exact Or.inr ⟨_, rfl⟩
  case configure => exact gate _ (by rw [configureLive_eq]; split <;> simp)
  case encode => exact gate _ (by rw [encodeLive_eq]; split <;> simp)
  case destroy => exact gate _ (Or.inl ⟨_, rfl⟩)
  case cmdIllegal => exact gate _ (Or.inr rfl)

/-! ### The spec's own words for the tests -/

theorem isDead_iff_dead (s : State) : isDead s.session = true ↔ s.dead := by
  cases h : s.session <;> simp [isDead, State.dead, h]

theorem not_isDead_iff_live (s : State) : isDead s.session = false ↔ s.live := by
  cases h : s.session <;> simp [isDead, State.live, h]

theorem live_of_not_dead {s : State} (h : ¬ s.dead) : s.live := by
  rw [← isDead_iff_dead] at h
  exact (not_isDead_iff_live s).mp (by simpa using h)

theorem configValid_iff_stagingLegal (s : State) : configValid lep10 s = true ↔ s.stagingLegal := by
  simp [configValid, fieldsValid, sfreqValid, chmodeValid, qualityValid, formatValid, State.stagingLegal,
    and_assoc, or_assoc]

/-! ### Everything a command can do -/

/-- A command other than CREATE in a dead state raises Fatal. -/
theorem exec_command_dead {i : Instr} {s : State} (hd : s.dead) (hc : isCommand i = true) (h : i ≠ .create) :
    exec i s = .next (raiseError s .fatal) := by
  have hd' := (isDead_iff_dead s).mpr hd
  have gate : ∀ run : State → State,
      (Host.Outcome.next (inLiveState s run) : Host.Outcome State Fault Refusal) = .next (raiseError s .fatal) :=
    fun run => by rw [inLiveState_dead _ hd']
  cases i <;> simp only [isCommand, Bool.false_eq_true] at hc
  case create => exact absurd rfl h
  all_goals exact gate _

/-- CONFIGURE in a live state. -/
theorem execConfigure_live {s : State} (hl : s.live) :
    (s.session = .uninitialized ∧ s.stagingLegal → execConfigure s = .next (commandDone (configureCommit s))) ∧
    (¬ (s.session = .uninitialized ∧ s.stagingLegal) →
      execConfigure s = .next (raiseError s .illegalParameter)) := by
  have e : execConfigure s = .next (configureLive lep10 s) := by
    rw [execConfigure, inLiveState_live _ ((not_isDead_iff_live s).mpr hl)]
  rw [e, configureLive_eq]
  refine ⟨fun h => ?_, fun h => ?_⟩
  · rw [if_pos ⟨h.1, (configValid_iff_stagingLegal s).mpr h.2⟩]
  · rw [if_neg (fun g => h ⟨g.1, (configValid_iff_stagingLegal s).mp g.2⟩)]

/-- A command that gives t from s does one of five things: each of the four commands succeeds where its checks pass,
with its own writes; everything else only raises an error. -/
theorem exec_command_inversion {i : Instr} {s t : State} (hc : isCommand i = true) (h : exec i s = .next t) :
    (i = .create ∧ t = commandDone { sessionDefaults s with session := .uninitialized }) ∨
    (i = .configure ∧ s.session = .uninitialized ∧ s.stagingLegal ∧ t = commandDone (configureCommit s)) ∨
    (i = .encode ∧ s.admitsEncode ∧ t = commandDone (encodeCommit lep10 s)) ∨
    (i = .destroy ∧ s.live ∧ t = commandDone { sessionDefaults s with session := .destroyed }) ∨
    (i ≠ .create ∧ ¬ (i = .configure ∧ s.session = .uninitialized ∧ s.stagingLegal) ∧
      ¬ (i = .encode ∧ s.admitsEncode) ∧ ¬ (i = .destroy ∧ s.live) ∧
      ∃ code, (code = .fatal ∨ code = .illegalParameter) ∧ t = raiseError s code) := by
  by_cases hi : i = .create
  · subst hi
    exact .inl ⟨rfl, (Host.Outcome.next.inj h).symm⟩
  by_cases hd : s.dead
  · rw [exec_command_dead hd hc hi] at h
    refine .inr (.inr (.inr (.inr ⟨hi, ?_, ?_, ?_, .fatal, .inl rfl, (Host.Outcome.next.inj h).symm⟩)))
    · rintro ⟨-, ha, -⟩
      rcases hd with e | e <;> rw [e] at ha <;> cases ha
    · rintro ⟨-, ha, -⟩
      rcases hd with e | e <;> rw [e] at ha <;> rcases ha with ha | ha <;> cases ha
    · rintro ⟨-, ha⟩
      rcases hd with e | e <;> rw [State.live, e] at ha <;> rcases ha with ha | ha | ha <;> cases ha
  have hl := live_of_not_dead hd
  have hl' := (not_isDead_iff_live s).mpr hl
  cases i <;> simp only [isCommand, Bool.false_eq_true, not_true_eq_false] at hc hi
  case configure =>
    by_cases hh : s.session = .uninitialized ∧ s.stagingLegal
    · exact .inr (.inl ⟨rfl, hh.1, hh.2, (Host.Outcome.next.inj (((execConfigure_live hl).1 hh).symm.trans h)).symm⟩)
    · exact .inr (.inr (.inr (.inr ⟨nofun, fun g => hh g.2, nofun, nofun, _, .inr rfl,
        (Host.Outcome.next.inj (((execConfigure_live hl).2 hh).symm.trans h)).symm⟩)))
  case encode =>
    by_cases hh : s.admitsEncode
    · exact .inr (.inr (.inl ⟨rfl, hh, (Host.Outcome.next.inj ((execEncode_admitted hh).symm.trans h)).symm⟩))
    · exact .inr (.inr (.inr (.inr ⟨nofun, nofun, fun g => hh g.2, nofun, _, .inr rfl,
        (Host.Outcome.next.inj ((execEncode_refused hl' hh).symm.trans h)).symm⟩)))
  case destroy =>
    have e : execDestroy s = .next (commandDone { sessionDefaults s with session := .destroyed }) := by
      rw [execDestroy, inLiveState_live _ hl']
    exact .inr (.inr (.inr (.inl ⟨rfl, hl, (Host.Outcome.next.inj (e.symm.trans h)).symm⟩)))
  case cmdIllegal v =>
    have e : execCmdIllegal v s = .next (raiseError s .illegalParameter) := by
      rw [execCmdIllegal, inLiveState_live _ hl']
    exact .inr (.inr (.inr (.inr ⟨nofun, nofun, nofun, nofun, _, .inr rfl,
      (Host.Outcome.next.inj (e.symm.trans h)).symm⟩)))

/-! ### The index of the block (log 22) -/

theorem exec_unitIndex {i : Instr} {s t : State} (h : exec i s = .next t) : t.unitIndex = s.unitIndex := by
  by_cases hc : isCommand i = true
  · rcases exec_command_inversion hc h with
      ⟨-, rfl⟩ | ⟨-, -, -, rfl⟩ | ⟨-, -, rfl⟩ | ⟨-, -, rfl⟩ | ⟨-, -, -, -, code, -, rfl⟩ <;> rfl
  · cases i <;> first
      | exact absurd rfl hc
      | exact Host.Outcome.next.inj h ▸ rfl

/-- No step changes which block this is, so the blocks of a system keep distinct indices. -/
theorem step_unitIndex {s t : State} (h : step s = .next t) : t.unitIndex = s.unitIndex := by
  unfold step at h
  split at h
  · rw [← Host.Outcome.next.inj h, idle_unitIndex]
  · rw [← Host.Outcome.next.inj h, hardwareReset_unitIndex, takeInput_unitIndex]
  · rw [exec_unitIndex h, takeInput_unitIndex]

/-! ### The stores keep the memory's canonical form -/

theorem wf_storeWord_pcm {s : State} (w : BitVec 7) (v : Word) (h : s.mem.wf = true) :
    (storeWord s (pcmWordOffset w) v).mem.wf = true := by
  refine Memory.wf_writeBytes _ _ _ (fun b h1 h2 => ?_) h
  have hw := w.isLt
  rw [bytesOfWord_length] at h2
  have hb : inPcmBuf b = true := by
    rw [inPcmBuf, Bool.and_eq_true, decide_eq_true_eq, decide_eq_true_eq]
    simp only [pcmWordOffset, pcmBase, pcmSize] at *
    omega
  rw [hb, Bool.true_or]

theorem wf_encodeCommit {s : State} (h : s.mem.wf = true) : (encodeCommit lep10 s).mem.wf = true := by
  refine Memory.wf_writeBytes _ _ _ (fun b h1 h2 => ?_) h
  have hp := payloadBytes_le lep10 s.actQuality
  rw [encodeFrame_length] at h2
  have hb : inFrameBuf b = true := by
    rw [inFrameBuf, Bool.and_eq_true, decide_eq_true_eq, decide_eq_true_eq]
    simp only [frameBase, frameSize] at *
    omega
  rw [hb, Bool.or_true]

/-- Each byte of the frame that a successful ENCODE leaves in FRAME_BUF (R205). -/
theorem frameByte_of_encode {s t : State} (ha : s.admitsEncode) (h : exec .encode s = .next t) {b : Nat}
    (hb : b < 3 + payloadBytes lep10 s.actQuality) : frameByte t b = (encodeFrame lep10 s).getD b 0 := by
  rw [← Host.Outcome.next.inj ((execEncode_admitted ha).symm.trans h), frameByte, byteAt_encodeCommit,
    if_pos (by omega), Nat.add_sub_cancel_left]

/-- Payload byte i of that frame (R203). -/
theorem encodeFrame_payload (s : State) {i : Nat} (hi : i < payloadBytes lep10 s.actQuality) :
    (encodeFrame lep10 s).getD (3 + i) 0 =
      payloadByte lep10 (coefficient lep10 s (nch lep10 s.actChmode)) (nch lep10 s.actChmode) i := by
  rw [Nat.add_comm]
  simp [encodeFrame, frameBytes, payload, hi]

end Sys2Proof.Machine
end

