-- ==== Sys2Proof/Laws/Decode.lean ====
section
/-! SUPPORT. Format T: packing and unpacking agree, and what the decoder gives at each kind of request. -/

namespace Sys2Proof

/-- The signals survive the 45-bit number of R91. -/
theorem unpack_pack (r : Request) : unpackRequest (packRequest r) = r := by
  obtain ⟨we, addr, wdata⟩ := r
  simp only [unpackRequest, packRequest, Request.mk.injEq]
  refine ⟨?_, ?_, ?_⟩
  · rw [BitVec.getLsbD_append]; simp
  · apply BitVec.eq_of_getLsbD_eq
    intro i hi
    simp only [BitVec.getLsbD_extractLsb', BitVec.getLsbD_append]
    simp [hi, show 32 + i < 44 by omega]
  · apply BitVec.eq_of_getLsbD_eq
    intro i hi
    simp only [BitVec.getLsbD_extractLsb', BitVec.getLsbD_append]
    simp [hi, show i < 44 by omega]

/-- The 45-bit number survives the signals. -/
theorem pack_unpack (t : BitVec 45) : packRequest (unpackRequest t) = t := by
  apply BitVec.eq_of_getLsbD_eq
  intro i hi
  simp only [packRequest, unpackRequest, BitVec.getLsbD_append, BitVec.getLsbD_extractLsb', BitVec.getLsbD_ofBool]
  by_cases h32 : i < 32
  · simp [h32, show i < 44 by omega]
  · by_cases h44 : i < 44
    · simp [h32, h44, show 32 + (i - 32) = i by omega, show i - 32 < 12 by omega]
    · obtain rfl : i = 44 := by omega
      simp

/-- Decoding an encoded instruction is decoding its request. -/
theorem decode_encode_eq (i : Instr) : decode (encode i) = decodeRequest (encodeRequest i) := by
  rw [decode, encode, unpack_pack]

/-! ### The decoder's windows as ranges of offsets (R62, R94) -/

theorem toNat_extractLsb'_addr (addr : Addr) (lo k : Nat) :
    (addr.extractLsb' lo k).toNat = addr.toNat / 2 ^ lo % 2 ^ k := by
  rw [BitVec.extractLsb'_toNat, Nat.shiftRight_eq_div_pow]

theorem aligned_iff (addr : Addr) : addr.extractLsb' 0 2 = 0#2 ↔ addr.toNat % 4 = 0 := by
  rw [BitVec.toNat_eq, toNat_extractLsb'_addr]
  simp only [BitVec.toNat_ofNat]
  omega

theorem pcm_window_iff (addr : Addr) :
    addr.extractLsb' 9 3 = 0b001#3 ↔ 0x200 ≤ addr.toNat ∧ addr.toNat < 0x400 := by
  have := addr.isLt
  rw [BitVec.toNat_eq, toNat_extractLsb'_addr]
  simp only [BitVec.toNat_ofNat]
  omega

theorem rdfrm_window_iff (addr : Addr) :
    addr.extractLsb' 8 4 = 0x4#4 ↔ 0x400 ≤ addr.toNat ∧ addr.toNat < 0x500 := by
  have := addr.isLt
  rw [BitVec.toNat_eq, toNat_extractLsb'_addr]
  simp only [BitVec.toNat_ofNat]
  omega

theorem rdfrmH1_window_iff (addr : Addr) :
    addr.extractLsb' 6 6 = 0b010100#6 ↔ 0x500 ≤ addr.toNat ∧ addr.toNat < 0x540 := by
  have := addr.isLt
  rw [BitVec.toNat_eq, toNat_extractLsb'_addr]
  simp only [BitVec.toNat_ofNat]
  omega

theorem rdfrmH2_window_iff (addr : Addr) :
    addr.extractLsb' 4 8 = 0x54#8 ↔ 0x540 ≤ addr.toNat ∧ addr.toNat < 0x550 := by
  have := addr.isLt
  rw [BitVec.toNat_eq, toNat_extractLsb'_addr]
  simp only [BitVec.toNat_ofNat]
  omega

end Sys2Proof
end

