-- ==== Sys2Proof/Laws/PerInstr.lean ====
section
/-! SUPPORT. The family RoundTrip, one lemma per constructor: decoding an encoded well-formed instruction gives it
back, with every operand at every value (R91, R94). -/

namespace Sys2Proof.Laws.RoundTrip

/-- Decode of encode is the instruction. -/
def Statement (i : Instr) : Prop := WellFormed i = true → decode (encode i) = i

theorem create : Statement .create := fun _ => by rw [decode_encode_eq]; rfl

theorem configure : Statement .configure := fun _ => by rw [decode_encode_eq]; rfl

theorem encode : Statement .encode := fun _ => by rw [decode_encode_eq]; rfl

theorem destroy : Statement .destroy := fun _ => by rw [decode_encode_eq]; rfl

theorem cmdIllegal (word : Word) : Statement (.cmdIllegal word) := by
  intro h
  rw [decode_encode_eq]
  simp only [WellFormed, isCommandWord, Bool.not_eq_true', Bool.or_eq_false_iff, beq_eq_false_iff_ne] at h
  obtain ⟨⟨⟨h1, h2⟩, h3⟩, h4⟩ := h
  show decodeCommand word = _
  rw [decodeCommand, if_neg h1, if_neg h2, if_neg h3, if_neg h4]

theorem rdStatus : Statement .rdStatus := fun _ => by rw [decode_encode_eq]; rfl

theorem getErr : Statement .getErr := fun _ => by rw [decode_encode_eq]; rfl

theorem wrCfgMtu (value : Word) : Statement (.wrCfgMtu value) := fun _ => by
  rw [decode_encode_eq]; simp [encodeRequest, writeRequest, decodeRequest, decodeWrite]

theorem rdCfgMtu : Statement .rdCfgMtu := fun _ => by rw [decode_encode_eq]; rfl

theorem wrCfgQuality (value : Word) : Statement (.wrCfgQuality value) := fun _ => by
  rw [decode_encode_eq]; simp [encodeRequest, writeRequest, decodeRequest, decodeWrite]

theorem rdCfgQuality : Statement .rdCfgQuality := fun _ => by rw [decode_encode_eq]; rfl

theorem wrCfgChmode (value : Word) : Statement (.wrCfgChmode value) := fun _ => by
  rw [decode_encode_eq]; simp [encodeRequest, writeRequest, decodeRequest, decodeWrite]

theorem rdCfgChmode : Statement .rdCfgChmode := fun _ => by rw [decode_encode_eq]; rfl

theorem wrCfgFormat (value : Word) : Statement (.wrCfgFormat value) := fun _ => by
  rw [decode_encode_eq]; simp [encodeRequest, writeRequest, decodeRequest, decodeWrite]

theorem rdCfgFormat : Statement .rdCfgFormat := fun _ => by rw [decode_encode_eq]; rfl

theorem wrCfgSfreq (value : Word) : Statement (.wrCfgSfreq value) := fun _ => by
  rw [decode_encode_eq]; simp [encodeRequest, writeRequest, decodeRequest, decodeWrite]

theorem rdCfgSfreq : Statement .rdCfgSfreq := fun _ => by rw [decode_encode_eq]; rfl

theorem wrPcmLen (value : Word) : Statement (.wrPcmLen value) := fun _ => by
  rw [decode_encode_eq]; simp [encodeRequest, writeRequest, decodeRequest, decodeWrite]

theorem rdPcmLen : Statement .rdPcmLen := fun _ => by rw [decode_encode_eq]; rfl

theorem wrOutCapacity (value : Word) : Statement (.wrOutCapacity value) := fun _ => by
  rw [decode_encode_eq]; simp [encodeRequest, writeRequest, decodeRequest, decodeWrite]

theorem rdOutCapacity : Statement .rdOutCapacity := fun _ => by rw [decode_encode_eq]; rfl

theorem getBr : Statement .getBr := fun _ => by rw [decode_encode_eq]; rfl

theorem getSf : Statement .getSf := fun _ => by rw [decode_encode_eq]; rfl

theorem rdBlockCountLo : Statement .rdBlockCountLo := fun _ => by rw [decode_encode_eq]; rfl

theorem rdBlockCountHi : Statement .rdBlockCountHi := fun _ => by rw [decode_encode_eq]; rfl

theorem rdConsumed : Statement .rdConsumed := fun _ => by rw [decode_encode_eq]; rfl

theorem rdFrameLen : Statement .rdFrameLen := fun _ => by rw [decode_encode_eq]; rfl

theorem rdFrameCount : Statement .rdFrameCount := fun _ => by rw [decode_encode_eq]; rfl

theorem ldpcm (w : BitVec 7) (value : Word) : Statement (.ldpcm w value) := by
  intro _
  rw [decode_encode_eq]
  have key : ∀ w : BitVec 7, (0b001#3 ++ w ++ 0b00#2 : Addr).extractLsb' 0 2 = 0#2 ∧
      ∀ a : Addr, a = 0b001#3 ++ w ++ 0b00#2 → a ≠ 0x000#12 ∧ a ≠ 0x00C#12 ∧ a ≠ 0x010#12 ∧ a ≠ 0x014#12 ∧
        a ≠ 0x018#12 ∧ a ≠ 0x01C#12 ∧ a ≠ 0x020#12 ∧ a ≠ 0x024#12 ∧ a.extractLsb' 9 3 = 0b001#3 ∧
        a.extractLsb' 2 7 = w := by
    intro w
    refine ⟨by revert w; decide +kernel, ?_⟩
    rintro a rfl
    revert w
    decide +kernel
  have h := (key w).2 _ rfl
  simp only [encodeRequest, writeRequest, decodeRequest, (key w).1, ne_eq, not_true_eq_false, if_false, if_true,
    decodeWrite, h]

theorem rdPcmBuf (w : BitVec 7) : Statement (.rdPcmBuf w) := by
  intro _
  rw [decode_encode_eq]
  revert w
  decide +kernel

theorem rdfrm (w : BitVec 6) : Statement (.rdfrm w) := by
  intro _
  rw [decode_encode_eq]
  revert w
  decide +kernel

theorem rdfrmH1 (wLow : BitVec 4) : Statement (.rdfrmH1 wLow) := by
  intro _
  rw [decode_encode_eq]
  revert wLow
  decide +kernel

theorem rdfrmH2 (wLow : BitVec 2) : Statement (.rdfrmH2 wLow) := by
  intro _
  rw [decode_encode_eq]
  revert wLow
  decide +kernel

/-- No aligned write outside the map is another row's. -/
theorem decodeWrite_not_permitted (addr : Addr) (v : Word) (h : permitted true addr = false)
    (ha : addr.extractLsb' 0 2 = 0#2) : decodeWrite addr v = .busErr true addr v := by
  have key : ∀ a : Addr, permitted true a = false → a.extractLsb' 0 2 = 0#2 →
      a ≠ 0x000#12 ∧ a ≠ 0x00C#12 ∧ a ≠ 0x010#12 ∧ a ≠ 0x014#12 ∧ a ≠ 0x018#12 ∧ a ≠ 0x01C#12 ∧ a ≠ 0x020#12 ∧
      a ≠ 0x024#12 ∧ a.extractLsb' 9 3 ≠ 0b001#3 := by decide +kernel
  simp only [decodeWrite, key addr h ha, if_false]

/-- No aligned read outside the map is another row's. -/
theorem decodeRead_not_permitted (addr : Addr) (v : Word) (h : permitted false addr = false)
    (ha : addr.extractLsb' 0 2 = 0#2) : decodeRead addr v = .busErr false addr v := by
  have key : ∀ a : Addr, permitted false a = false → a.extractLsb' 0 2 = 0#2 →
      a ≠ 0x004#12 ∧ a ≠ 0x008#12 ∧ a ≠ 0x00C#12 ∧ a ≠ 0x010#12 ∧ a ≠ 0x014#12 ∧ a ≠ 0x018#12 ∧ a ≠ 0x01C#12 ∧
      a ≠ 0x020#12 ∧ a ≠ 0x024#12 ∧ a ≠ 0x028#12 ∧ a ≠ 0x02C#12 ∧ a ≠ 0x030#12 ∧ a ≠ 0x034#12 ∧ a ≠ 0x038#12 ∧
      a ≠ 0x03C#12 ∧ a ≠ 0x040#12 ∧ a.extractLsb' 9 3 ≠ 0b001#3 ∧ a.extractLsb' 8 4 ≠ 0x4#4 ∧
      a.extractLsb' 6 6 ≠ 0b010100#6 ∧ a.extractLsb' 4 8 ≠ 0x54#8 := by decide +kernel
  simp only [decodeRead, key addr h ha, if_false]

theorem busErr (we : Bool) (addr : Addr) (wdata : Word) : Statement (.busErr we addr wdata) := by
  intro h
  rw [decode_encode_eq]
  simp only [WellFormed, Bool.not_eq_true'] at h
  by_cases ha : addr.extractLsb' 0 2 = 0#2
  · cases we
    · simpa [encodeRequest, decodeRequest, ha] using decodeRead_not_permitted addr wdata h ha
    · simpa [encodeRequest, decodeRequest, ha] using decodeWrite_not_permitted addr wdata h ha
  · simp [encodeRequest, decodeRequest, ha]

end Sys2Proof.Laws.RoundTrip
end

