-- ==== Sys2Proof/Laws/Transform.lean ====
section
/-! SUPPORT. Facts of the ROM, the window and the basis that every bound on the transform starts from, and that the
transform reads its 256 inputs only (R171 to R176). -/

namespace Sys2Proof.Machine

/-- Every ROM entry and its negation is finite, non-zero and below 1 in magnitude (R171). -/
theorem rom_bounds : ∀ j < 128,
    (isFinite (romAt j) = true ∧ 0 < magnitude (romAt j) ∧ magnitude (romAt j) < 2 ^ 149) ∧
    (isFinite (fneg (romAt j)) = true ∧ 0 < magnitude (fneg (romAt j)) ∧ magnitude (fneg (romAt j)) < 2 ^ 149) := by
  decide +kernel

/-- The folded index is odd and at most 511 (R173). -/
theorem basIndex_odd (k n : Nat) : basIndex k n % 2 = 1 ∧ basIndex k n ≤ 511 := by
  have h : ((2 * n + 129) * (2 * k + 1)) % 1024 % 2 = 1 := by
    rw [Nat.mod_mod_of_dvd _ (by norm_num), Nat.mul_mod, show (2 * n + 129) % 2 = 1 by omega,
      show (2 * k + 1) % 2 = 1 by omega]
  simp only [basIndex]
  split <;> omega

/-- Every basis value is finite, non-zero and below 1 in magnitude (R173). -/
theorem bas_bounds (k n : Nat) :
    isFinite (bas k n) = true ∧ 0 < magnitude (bas k n) ∧ magnitude (bas k n) < 2 ^ 149 := by
  obtain ⟨h1, h2⟩ := basIndex_odd k n
  simp only [bas]
  split
  · exact (rom_bounds _ (by omega)).1
  · exact (rom_bounds _ (by omega)).2

/-- Every window value is finite, non-zero and below 1 in magnitude (R172). -/
theorem win_bounds {n : Nat} (h : n < 256) :
    isFinite (win n) = true ∧ 0 < magnitude (win n) ∧ magnitude (win n) < 2 ^ 149 := by
  simp only [win]
  split <;> exact (rom_bounds _ (by omega)).1

/-- The transform is a function of its 256 inputs (R176). -/
theorem transform_congr {a b : Nat → F32} (h : ∀ n, n < 256 → a n = b n) (k : Nat) :
    transform a k = transform b k := by
  simp only [transform, transformWith, project]
  refine List.foldl_ext _ _ _ fun acc n hn => ?_
  rw [accumulate, accumulate, windowed, windowed, h n (by simpa using hn)]

end Sys2Proof.Machine
end

