-- ==== Sys2Proof/Tests/Slice0.lean ====
section
/-! SUPPORT. Tests on fixed values and, for every statement with hypotheses, a concrete state and operands that meet
all of them together. Expected values come from the spec: the encoding tables of R91 to R94, the examples of the rules
and the vectors of spec/95_test_vectors.md, each named at its test. -/

namespace Sys2Proof.Tests

open Sys2Proof Sys2Proof.Machine

/-! ## WellFormed refuses what the encoding does not admit -/

/-- 0x00000001 is CREATE's word (R92), so it is no CMD.ILLEGAL. -/
theorem test_illegal_word_create_refused : WellFormed (.cmdIllegal 1#32) = false := by decide
theorem test_illegal_word_destroy_refused : WellFormed (.cmdIllegal 4#32) = false := by decide
theorem test_illegal_word_zero_accepted : WellFormed (.cmdIllegal 0#32) = true := by decide
/-- A read of STATUS is permitted (R62), so it is no BUS.ERR; nor are the last words of the two buffers. -/
theorem test_buserr_status_refused : WellFormed (.busErr false 0x004#12 0#32) = false := by decide
theorem test_buserr_pcm_write_refused : WellFormed (.busErr true 0x3FC#12 0#32) = false := by decide
theorem test_buserr_frame_read_refused : WellFormed (.busErr false 0x54C#12 0#32) = false := by decide
theorem test_buserr_cmd_write_refused : WellFormed (.busErr true 0x000#12 0#32) = false := by decide
theorem test_buserr_frame_write_accepted : WellFormed (.busErr true 0x400#12 0#32) = true := by decide

/-! ## Decoding: one word per row, written out from R91 and R94 -/

theorem test_decode_create : decode (0b1#1 ++ (0x000#12 ++ 0x00000001#32)) = .create := by decide
theorem test_decode_configure : decode (0b1#1 ++ (0x000#12 ++ 0x00000002#32)) = .configure := by decide
theorem test_decode_encode : decode (0b1#1 ++ (0x000#12 ++ 0x00000003#32)) = .encode := by decide
theorem test_decode_destroy : decode (0b1#1 ++ (0x000#12 ++ 0x00000004#32)) = .destroy := by decide
/-- R93: `0x00000101` is not CREATE. -/
theorem test_decode_cmd_illegal : decode (0b1#1 ++ (0x000#12 ++ 0x00000101#32)) = .cmdIllegal 0x101#32 := by decide
theorem test_decode_rd_status : decode (0b0#1 ++ (0x004#12 ++ 0x00000000#32)) = .rdStatus := by decide
theorem test_decode_geterr : decode (0b0#1 ++ (0x008#12 ++ 0x00000000#32)) = .getErr := by decide
theorem test_decode_cfg_mtu :
    decode (0b1#1 ++ (0x00C#12 ++ 0x000002A7#32)) = .wrCfgMtu 679#32 ∧
    decode (0b0#1 ++ (0x00C#12 ++ 0x00000000#32)) = .rdCfgMtu := by decide
theorem test_decode_cfg_quality :
    decode (0b1#1 ++ (0x010#12 ++ 0x00000100#32)) = .wrCfgQuality 0x100#32 ∧
    decode (0b0#1 ++ (0x010#12 ++ 0x00000000#32)) = .rdCfgQuality := by decide
theorem test_decode_cfg_chmode :
    decode (0b1#1 ++ (0x014#12 ++ 0x80000002#32)) = .wrCfgChmode 0x80000002#32 ∧
    decode (0b0#1 ++ (0x014#12 ++ 0x00000000#32)) = .rdCfgChmode := by decide
theorem test_decode_cfg_format :
    decode (0b1#1 ++ (0x018#12 ++ 0x00000003#32)) = .wrCfgFormat 3#32 ∧
    decode (0b0#1 ++ (0x018#12 ++ 0x00000000#32)) = .rdCfgFormat := by decide
/-- R98: `WR CFG_SFREQ, 44100` is `0x101C0000AC44`. -/
theorem test_decode_cfg_sfreq :
    decode 0x101C0000AC44#45 = .wrCfgSfreq 44100#32 ∧
    decode (0b0#1 ++ (0x01C#12 ++ 0x00000000#32)) = .rdCfgSfreq := by decide
theorem test_decode_pcm_len :
    decode (0b1#1 ++ (0x020#12 ++ 0x00000200#32)) = .wrPcmLen 512#32 ∧
    decode (0b0#1 ++ (0x020#12 ++ 0x00000000#32)) = .rdPcmLen := by decide
theorem test_decode_out_capacity :
    decode (0b1#1 ++ (0x024#12 ++ 0x0000014D#32)) = .wrOutCapacity 333#32 ∧
    decode (0b0#1 ++ (0x024#12 ++ 0x00000000#32)) = .rdOutCapacity := by decide
/-- R98: `RD BITRATE` is `0x002800000000`. -/
theorem test_decode_queries :
    decode 0x002800000000#45 = .getBr ∧ decode (0b0#1 ++ (0x02C#12 ++ 0x00000000#32)) = .getSf := by decide
theorem test_decode_block_count :
    decode (0b0#1 ++ (0x030#12 ++ 0x00000000#32)) = .rdBlockCountLo ∧
    decode (0b0#1 ++ (0x034#12 ++ 0x00000000#32)) = .rdBlockCountHi := by decide
theorem test_decode_results :
    decode (0b0#1 ++ (0x038#12 ++ 0x00000000#32)) = .rdConsumed ∧
    decode (0b0#1 ++ (0x03C#12 ++ 0x00000000#32)) = .rdFrameLen ∧
    decode (0b0#1 ++ (0x040#12 ++ 0x00000000#32)) = .rdFrameCount := by decide
/-- R67: `WR PCM_BUF+0x1FC, 0x80007FFF` is `0x13FC80007FFF`; w is 0x1FC / 4. -/
theorem test_decode_pcm_buf :
    decode 0x13FC80007FFF#45 = .ldpcm 127#7 0x80007FFF#32 ∧
    decode 0x020000000000#45 = .rdPcmBuf 0#7 ∧ decode (0b0#1 ++ (0x2A4#12 ++ 0x0#32)) = .rdPcmBuf 41#7 := by decide
/-- The three rows of RDFRM at the ends of their ranges (R94). -/
theorem test_decode_frame_buf :
    decode (0b0#1 ++ (0x400#12 ++ 0x0#32)) = .rdfrm 0#6 ∧ decode (0b0#1 ++ (0x4FC#12 ++ 0x0#32)) = .rdfrm 63#6 ∧
    decode (0b0#1 ++ (0x500#12 ++ 0x0#32)) = .rdfrmH1 0#4 ∧ decode (0b0#1 ++ (0x53C#12 ++ 0x0#32)) = .rdfrmH1 15#4 ∧
    decode (0b0#1 ++ (0x540#12 ++ 0x0#32)) = .rdfrmH2 0#2 ∧ decode (0b0#1 ++ (0x54C#12 ++ 0x0#32)) = .rdfrmH2 3#2 := by
  decide
/-- R68: a misaligned write aimed at CMD, a read of CMD and a write to FRAME_BUF; the ends of the reserved ranges. -/
theorem test_decode_bus_err :
    decode 0x100100000001#45 = .busErr true 0x001#12 1#32 ∧ decode 0x000000000000#45 = .busErr false 0x000#12 0#32 ∧
    decode 0x140000000000#45 = .busErr true 0x400#12 0#32 ∧ decode 0x004400000000#45 = .busErr false 0x044#12 0#32 ∧
    decode 0x055000000000#45 = .busErr false 0x550#12 0#32 ∧ decode 0x1FFF00000000#45 = .busErr true 0xFFF#12 0#32 := by
  decide

/-- Bytes that are no format T word are rejected by name (log 12). -/
theorem test_decode_bytes_rejects :
    decodeBytes [0x01#8, 0x00#8, 0x00#8, 0x00#8, 0x00#8] = .error .notSixBytes ∧
    decodeBytes [0x01#8, 0x00#8, 0x00#8, 0x00#8, 0x00#8, 0x20#8] = .error .aboveFormatT ∧
    decodeBytes [0x01#8, 0x00#8, 0x00#8, 0x00#8, 0x00#8, 0x10#8] = .ok .create := ⟨rfl, rfl, rfl⟩
theorem test_decode_table_word :
    decodeTableWord 48 0x100000000003 = some .encode ∧ decodeTableWord 48 0x300000000003 = none := ⟨rfl, rfl⟩

/-! ## States for the tests and the witnesses -/

/-- The next state, where there is one. -/
def nextOf : Host.Outcome State Fault Refusal → Option State
  | .next t => some t
  | .fault _ => none
  | .refused _ => none

/-- A created, unconfigured session whose staging registers hold High, Stereo, S16, 44100 Hz. -/
def created : State :=
  { State.reset with session := .uninitialized, cfgMtu := 679, cfgSfreq := 44100, pcmLen := 512, outCapacity := 333 }

/-- The same session configured (V14's sequence up to CONFIGURE). -/
def ready : State :=
  { created with session := .ready, actMtu := 679, actSfreq := 44100 }

/-- A configured Mono, Mobile session at 96000 Hz. -/
def readyMono : State :=
  { State.reset with
    session := .ready, actQuality := 2, actChmode := 2, actSfreq := 96000, pcmLen := 256, outCapacity := 113 }

/-- A configured DualChannel, Standard session at 48000 Hz. -/
def readyDual : State :=
  { State.reset with
    session := .ready, actQuality := 1, actChmode := 1, actSfreq := 48000, pcmLen := 512, outCapacity := 223 }

def destroyed : State := { State.reset with session := .destroyed }

/-- The bytes of PCM_BUF, all zero. -/
@[irreducible] def zeroBlock : Memory := (List.range 512).map fun o => (pcmBase + o, 0#8)

/-- `ready` with an all-zero block in PCM_BUF. -/
def readySilent : State := { ready with mem := zeroBlock }

theorem ready_admits : ready.admitsEncode := ⟨.inl rfl, rfl, by decide, by decide⟩
theorem readyMono_admits : readyMono.admitsEncode := ⟨.inl rfl, rfl, by decide, by decide⟩
theorem readyDual_admits : readyDual.admitsEncode := ⟨.inl rfl, rfl, by decide, by decide⟩
theorem readySilent_admits : readySilent.admitsEncode :=
  ⟨.inl rfl, rfl, by rw [readySilent]; decide, by rw [readySilent]; decide⟩

theorem silence_samplesOnly : samplesOnly silence := fun j => ⟨0, by
  rw [silence, Fin.getElem_fin, Vector.getElem_replicate]; decide⟩

theorem created_inv : Inv created where
  mem_wf := by decide
  error_raised := .inl rfl
  configured_legal := nofun
  unconfigured_default := fun _ => ⟨⟨rfl, rfl, rfl, rfl, rfl⟩, ⟨rfl, rfl, rfl, rfl, rfl, rfl⟩⟩
  ready_fresh := nofun
  encoding_results := nofun
  overlap_samples := ⟨silence_samplesOnly, silence_samplesOnly⟩
  mono_second_silent := fun _ => rfl
  error_no_data := nofun

theorem ready_inv : Inv ready where
  mem_wf := by decide
  error_raised := .inl rfl
  configured_legal := fun _ => ⟨.inl rfl, .inl rfl, .inl rfl, .inl rfl⟩
  unconfigured_default := nofun
  ready_fresh := fun _ => ⟨rfl, rfl, rfl, rfl, rfl, rfl⟩
  encoding_results := nofun
  overlap_samples := ⟨silence_samplesOnly, silence_samplesOnly⟩
  mono_second_silent := fun _ => rfl
  error_no_data := nofun

/-! ## One step on fixed values -/

/-- R66: after reset `RD STATUS` answers OK 0x00000000. -/
theorem test_status_after_reset :
    step (State.reset.withFetchWord 48 0x000400000000) = .next { State.reset with response := some ⟨0#32, false⟩ } := rfl

/-- R110: after reset `WR CMD, 1`, then STATUS is 1. -/
theorem test_create_then_status :
    (nextOf (step (State.reset.withFetchWord 48 0x100000000001))).map statusWord = some 1#32 := rfl

/-- R113: CONFIGURE of the example gives STATUS 2 and GETBR 909562 (0xDE0FA). -/
theorem test_configure_example :
    (nextOf (exec .configure created)).map (fun t => (statusWord t, bitrateWord lep10 t, sfreqWord t)) =
      some (2#32, 909562#32, 44100#32) := rfl

/-- R114's example: 22050 Hz is refused with IllegalParameter and leaves the session Uninitialized. -/
theorem test_configure_22050 :
    (nextOf (exec .configure { created with cfgSfreq := 22050 })).map (fun t => (statusWord t, lastErrorWord t)) =
      some (1#32, 3#32) := rfl

/-- R120: `DESTROY` then STATUS 4, counter 0. -/
theorem test_destroy_example :
    (nextOf (exec .destroy { ready with session := .encoding, blockCount := 7 })).map
      (fun t => (statusWord t, lastErrorWord t, t.blockCount)) = some (4#32, 0#32, 0#64) := rfl

/-- R93: in a dead state an unknown command word reports Fatal. -/
theorem test_illegal_word_dead :
    (nextOf (exec (.cmdIllegal 0#32) destroyed)).map lastErrorWord = some 2#32 := rfl
/-- R126's example: in Ready, `WR CMD, 5` gives code 3 and leaves STATUS 2. -/
theorem test_illegal_word_ready :
    (nextOf (exec (.cmdIllegal 5#32) ready)).map (fun t => (statusWord t, lastErrorWord t)) = some (2#32, 3#32) := rfl

/-- R163's example: Standard at 48000 Hz, GETBR 0x000A1220. -/
theorem test_getbr_example :
    (nextOf (exec .getBr readyDual)).bind (fun t => t.response.map Response.rdata) = some 0x000A1220#32 := rfl

/-- R63: 0x44332211 to bus offset 0x200 puts 11 22 33 44 into PCM_BUF[0..3], and the read gives it back. -/
theorem test_ldpcm_bytes :
    (nextOf (exec (.ldpcm 0#7 0x44332211#32) ready)).map
      (fun t => (pcmByte t 0, pcmByte t 1, pcmByte t 2, pcmByte t 3, wordAt t 0x200)) =
      some (0x11#8, 0x22#8, 0x33#8, 0x44#8, 0x44332211#32) := by decide

/-- R67: `WR PCM_BUF+0x1FC, 0x80007FFF` sets PCM_BUF[508..511] to FF 7F 00 80. -/
theorem test_ldpcm_last_word :
    (nextOf (step (ready.withFetchWord 48 0x13FC80007FFF))).map
      (fun t => (pcmByte t 508, pcmByte t 509, pcmByte t 510, pcmByte t 511)) =
      some (0xFF#8, 0x7F#8, 0x00#8, 0x80#8) := by decide

/-- V20 (R140's example): the results of the first ENCODE; the counter wraps as in R151. -/
theorem test_encode_results :
    (nextOf (exec .encode { ready with blockCount := 0xFFFFFFFFFFFFFFFF#64 })).map
      (fun t => (statusWord t, lastErrorWord t, t.frameLen, t.consumed, t.frameCount, t.blockCount)) =
      some (3#32, 0#32, 333#32, 512#32, 1#32, 0#64) := rfl

/-- R146: one byte short of 333 is refused. -/
theorem test_encode_capacity :
    (nextOf (exec .encode { ready with outCapacity := 332 })).map (fun t => (statusWord t, lastErrorWord t)) =
      some (2#32, 3#32) := rfl

/-- The first three bytes of V20's frame: AA 00 4A. -/
theorem test_frame_head : (frameBytes 44100#32 0#32 330 []).map BitVec.toNat = [0xAA, 0x00, 0x4A] := by decide

/-- A Mono block's second channel keeps its overlap (R148). -/
theorem test_encode_mono_overlap :
    (nextOf (exec .encode { readyMono with ovl1 := Vector.replicate 128 0x3F800000#32 })).map (fun t => t.ovl1[5]) =
      some 0x3F800000#32 := rfl

/-! ## Numbers (R170, R173, R179) -/

/-- R170: `x + (-x)` is +0.0, `(+0.0) + (-0.0)` is +0.0, `(-0.0) + (-0.0)` is -0.0. -/
theorem test_fadd_zero_signs :
    fadd 0x3F800000#32 0xBF800000#32 = 0#32 ∧ fadd 0#32 0x80000000#32 = 0#32 ∧
    fadd 0x80000000#32 0x80000000#32 = 0x80000000#32 := by decide +kernel
/-- Ties to even (R170): 2^24 + 1 rounds down, 2^24 + 3 rounds up. -/
theorem test_fadd_ties :
    fadd 0x4B800000#32 0x3F800000#32 = 0x4B800000#32 ∧ fadd 0x4B800000#32 0x40400000#32 = 0x4B800002#32 := by
  decide +kernel
/-- R179's last row: 2^-149 times 2^-15 underflows to +0.0. -/
theorem test_fmul_underflow : fmul 0x00000001#32 0x38000000#32 = 0#32 := by decide +kernel
/-- R173's examples. -/
theorem test_bas_examples :
    bas 0 0 = 0x3F33E7BC#32 ∧ bas 0 63 = 0x3BC90F88#32 ∧ bas 0 64 = 0xBBC90F88#32 ∧ bas 0 255 = 0xBF36206C#32 ∧
    bas 1 0 = 0xBF385216#32 ∧ bas 127 255 = 0x3F33E7BC#32 := by decide +kernel
/-- R172: the smallest and the largest window value. -/
theorem test_win_ends : win 0 = 0x3BC90F88#32 ∧ win 255 = win 0 ∧ win 127 = 0x3F7FFEC4#32 ∧ win 128 = win 127 := by
  decide +kernel
/-- R179, both sides of its ties: 16384, its successor, 49152, -49152, 81920, -81920. -/
theorem test_quantize_ties :
    [0x46800000#32, 0x46800001#32, 0x47400000#32, 0xC7400000#32, 0x47A00000#32, 0xC7A00000#32].map
      (fun x => (quantize x).toNat) = [128, 129, 130, 126, 130, 126] := by decide +kernel
/-- R179, the clip: 4145152, 4177920, 8388608, -4177920, -4210688, -8388608, and the infinities and a NaN. -/
theorem test_quantize_clip :
    [0x4A7D0000#32, 0x4A7F0000#32, 0x4B000000#32, 0xCA7F0000#32, 0xCA808000#32, 0xCB000000#32, 0x7F800000#32,
      0xFF800000#32, 0x7FC00000#32].map (fun x => (quantize x).toNat) = [254, 255, 255, 0, 0, 0, 255, 0, 128] := by
  decide +kernel

/-- One channel's analysis input of V28: only a[200] is not +0.0. -/
def single (x : BitVec 16) (n : Nat) : F32 := if n = 200 then f32OfSample x else 0#32

/-- V28: a[200] = -12345.0 gives z[200], X[0] and X[127]. -/
theorem test_transform_single :
    windowed win (single (-12345#16)) 200 = 0xC5F2E713#32 ∧ transform (single (-12345#16)) 0 = 0x45F19515#32 ∧
    transform (single (-12345#16)) 127 = 0x444A54D3#32 := by decide +kernel
/-- V28: a[200] = -32768.0, coefficients 2, 3 and 12 as bytes. -/
theorem test_payload_single :
    [2, 3, 12].map (fun k => (quantize (transform (single 0x8000#16) k)).toNat) = [0x81, 0x80, 0x7F] := by
  decide +kernel

/-! ## Witnesses: hypotheses of the statements, met together

Each theorem is named after its statement and shows values that meet the hypotheses of every clause, at the ends of
ranges where a clause has a range. -/

/-- The two catch-all rows and one plain row. -/
theorem witness_DecodeOfEncodeIsTheInstruction :
    WellFormed (.cmdIllegal 5#32) = true ∧ WellFormed (.busErr false 0x550#12 7#32) = true ∧
    WellFormed (.rdfrmH2 3#2) = true := by decide

theorem witness_DecodedTransactionReencodes :
    (0x100C00000001#45).getLsbD 44 = true ∧ (0x000400000000#45).extractLsb' 0 32 = 0#32 := by decide

/-- Every item of R68's list at the ends of its range, and unlisted neighbours. -/
theorem witness_BusErrorExactlyWhereListed :
    (∀ a ∈ [0x001, 0x003, 0xFFF, 0x044, 0x1FC, 0x550, 0xFFC], ∀ we, busErrorListed we a) ∧
    busErrorListed false 0x000 ∧ (∀ a ∈ [0x004, 0x008, 0x028, 0x040, 0x400, 0x54C], busErrorListed true a) ∧
    (∀ a ∈ [0x004, 0x040, 0x200, 0x3FC, 0x400, 0x54C], ¬ busErrorListed false a) ∧
    (∀ a ∈ [0x000, 0x00C, 0x024, 0x200, 0x3FC], ¬ busErrorListed true a) := by
  simp [busErrorListed]

theorem witness_BusWritesFollowTheMap : (0x3FC#12 ≠ 0#12) ∧ (0x000#12 = 0#12) := by decide

theorem created_live : created.live := .inl rfl
theorem ready_live : ready.live := .inr (.inl rfl)
theorem encoding_live : State.live { ready with session := .encoding } := .inr (.inr rfl)
theorem reset_dead : State.reset.dead := .inl rfl
theorem destroyed_dead : destroyed.dead := .inr rfl
theorem ready_not_dead : ¬ ready.dead := nofun

theorem witness_CommandWordsAreTestedInOrder :
    (0x00000101#32 ≠ 1#32) ∧ State.reset.dead ∧ ¬ ready.dead ∧
    (0#32 ≠ 1#32 ∧ 0#32 ≠ 2#32 ∧ 0#32 ≠ 3#32 ∧ (0#32 : Word) ≠ 4#32) :=
  ⟨by decide, reset_dead, ready_not_dead, by decide⟩

/-- A state with CREATE on the port. -/
def withCreate : State := { created with inputs := [.request ⟨true, 0x000#12, 1#32⟩] }

theorem witness_StepRunsTheDecodedRequest :
    withCreate.inputs = .request ⟨true, 0x000#12, 1#32⟩ :: [] ∧ decodeRequest ⟨true, 0x000#12, 1#32⟩ = .create := by
  decide

/-- A reset that cuts an ENCODE short (R252). -/
def withReset : State := { ready with inputs := [.reset (some ⟨true, 0x000#12, 3#32⟩)] }

theorem witness_StepWithoutRequest :
    ready.inputs = [] ∧ withReset.inputs = .reset (some ⟨true, 0x000#12, 3#32⟩) :: [] := ⟨rfl, rfl⟩

theorem witness_ResetStateAsStated :
    (State.reset = State.reset) ∧
    ∃ t, withReset.inputs = .reset (some ⟨true, 0x000#12, 3#32⟩) :: [] ∧ step withReset = .next t := ⟨rfl, _, rfl, rfl⟩

theorem withCreate_inv : Inv withCreate :=
  { mem_wf := created_inv.mem_wf, error_raised := created_inv.error_raised, configured_legal := nofun,
    unconfigured_default := fun _ => created_inv.unconfigured_default rfl, ready_fresh := nofun,
    encoding_results := nofun, overlap_samples := created_inv.overlap_samples,
    mono_second_silent := fun _ => rfl, error_no_data := nofun }

theorem witness_StepKeepsInvariant : ∃ t, Inv withCreate ∧ step withCreate = .next t :=
  ⟨_, withCreate_inv, rfl⟩

theorem witness_MemoryFormIsKept : ∃ t, readySilent.mem.wf = true ∧ step readySilent = .next t :=
  ⟨_, by decide +kernel, rfl⟩

/-- Every value of STATE and of LAST_ERROR that the clauses name. -/
theorem witness_StatusAndErrorReads :
    (∀ q, ({ State.reset with session := q } : State).session = q) ∧
    (∀ e, ({ State.reset with lastError := e } : State).lastError = e) := ⟨fun _ => rfl, fun _ => rfl⟩

/-- Unconfigured; and the first, a middle and the last row of R162's table. -/
theorem witness_BitrateQueryAnswersTheTable :
    (created.session ≠ .ready ∧ created.session ≠ .encoding) ∧
    (ready.session = .ready ∧ ready.actQuality.toNat = 0 ∧ ready.actSfreq.toNat = 44100) ∧
    (readyDual.session = .ready ∧ readyDual.actQuality.toNat = 1 ∧ readyDual.actSfreq.toNat = 48000) ∧
    (readyMono.session = .ready ∧ readyMono.actQuality.toNat = 2 ∧ readyMono.actSfreq.toNat = 96000) := by decide

theorem witness_SamplingFrequencyQuery :
    (ready.session = .ready ∨ ready.session = .encoding) ∧
    (destroyed.session ≠ .ready ∧ destroyed.session ≠ .encoding) := by decide

theorem witness_SfreqReadsTheStoredValue : Inv ready := ready_inv

theorem witness_ReadsChangeNothing : isRead .getErr = true ∧ isRead (.rdPcmBuf 127#7) = true := by decide

/-- The bytes just below and just above word 0 and word 127. -/
theorem witness_LdpcmStoresOneWordLittleEndian :
    0x1FF < pcmWordOffset 0#7 ∧ pcmWordOffset 0#7 + 4 ≤ 0x204 ∧ 0x3FB < pcmWordOffset 127#7 ∧
    pcmWordOffset 127#7 + 4 ≤ 0x400 := by decide

theorem witness_LdpcmThenReadAnswersTheWord :
    ∃ t d, exec (.ldpcm 0#7 0x44332211#32) ready = .next t ∧ (127#7 ≠ 0#7) ∧
      exec (.rdPcmBuf 127#7) ready = .next { ready with response := some ⟨d, false⟩ } :=
  ⟨_, _, rfl, by decide, rfl⟩

/-- FRAME_BUF[0] and PCM_BUF[0] hold 0. -/
def written : State := { ready with mem := [(pcmBase, 0#8), (frameBase, 0#8)] }

theorem witness_BuffersWrittenOnlyByTheirInstruction :
    (∃ t, exec (.ldpcm 0#7 0x44332211#32) written = .next t ∧ pcmByte t 0 ≠ pcmByte written 0) ∧
    (∃ t, exec .encode written = .next t ∧ frameByte t 0 ≠ frameByte written 0) := by
  have h : written.admitsEncode := ⟨.inl rfl, rfl, by decide, by decide⟩
  refine ⟨⟨_, rfl, by decide⟩, ⟨_, execEncode_admitted h, ?_⟩⟩
  rw [frameByte_of_encode h (execEncode_admitted h) (by omega)]
  exact fun e => absurd (congrArg BitVec.toNat e) (by decide)

theorem witness_DestroyReleasesALiveSession : created.live ∧ ready.live ∧ State.reset.dead ∧ destroyed.dead :=
  ⟨created_live, ready_live, reset_dead, destroyed_dead⟩

theorem witness_DeadStateCommandsRaiseFatal :
    State.reset.dead ∧ destroyed.dead ∧ isCommand (.cmdIllegal 0#32) = true ∧ Instr.cmdIllegal 0#32 ≠ .create ∧
    isCommand .destroy = true ∧ Instr.destroy ≠ .create :=
  ⟨reset_dead, destroyed_dead, rfl, by decide, rfl, by decide⟩

theorem witness_IllegalCommandWordInALiveState :
    (5#32 ≠ 1#32 ∧ 5#32 ≠ 2#32 ∧ 5#32 ≠ 3#32 ∧ (5#32 : Word) ≠ 4#32) ∧ created.live ∧ ready.live ∧
    State.live { ready with session := .encoding } :=
  ⟨by decide, created_live, ready_live, encoding_live⟩

theorem created_stagingLegal : created.stagingLegal := ⟨.inl rfl, .inl rfl, .inl rfl, .inl rfl⟩

theorem witness_ConfigureStoresTheConfiguration : created.session = .uninitialized ∧ created.stagingLegal :=
  ⟨rfl, created_stagingLegal⟩

/-- `created` with quality 3, one past the last legal value. -/
def createdBad : State := { created with cfgQuality := 3 }

theorem createdBad_not_legal : ¬ createdBad.stagingLegal := fun h => by
  rcases h.2.2.1 with h | h | h <;> exact absurd h (by decide)

theorem witness_ConfigureRefusesEverythingElse :
    (ready.live ∧ ready.session ≠ .uninitialized) ∧ (createdBad.live ∧ ¬ createdBad.stagingLegal) :=
  ⟨⟨ready_live, by decide⟩, .inl rfl, createdBad_not_legal⟩

theorem created_not_admits : ¬ created.admitsEncode := fun h => by rcases h.1 with h | h <;> cases h

theorem witness_SessionStateMachineTable :
    (destroyed.dead ∧ isCommand .encode = true ∧ Instr.encode ≠ .create) ∧
    (created.live ∧ created.session = .uninitialized ∧ created.stagingLegal) ∧
    (createdBad.live ∧ ¬ (createdBad.session = .uninitialized ∧ createdBad.stagingLegal)) ∧
    (ready.live ∧ ready.admitsEncode) ∧ (created.live ∧ ¬ created.admitsEncode) ∧
    (∃ t, isCommand .getErr = false ∧ exec .getErr ready = .next t) :=
  ⟨⟨destroyed_dead, rfl, by decide⟩, ⟨created_live, rfl, created_stagingLegal⟩,
    ⟨.inl rfl, fun h => createdBad_not_legal h.2⟩, ⟨ready_live, ready_admits⟩,
    ⟨created_live, created_not_admits⟩, _, rfl, rfl⟩

theorem witness_FailedCommandChangesOnlyLastError :
    ∃ t, isCommand .configure = true ∧ exec .configure ready = .next t ∧ t.lastError ≠ .none :=
  ⟨_, rfl, rfl, by decide⟩

theorem witness_LastErrorIsWrittenByCommandsOnly :
    (∃ t, exec .getErr ready = .next t ∧ isCommand .getErr = false) ∧
    (∃ t, exec .create ready = .next t ∧ isCommand .create = true) := ⟨⟨_, rfl, rfl⟩, _, rfl, rfl⟩

/-- Each of the seven port registers changed by its own write. -/
theorem witness_PortRegistersAreTheHosts :
    (∃ t, exec (.wrCfgMtu 9#32) State.reset = .next t ∧ t.cfgMtu ≠ State.reset.cfgMtu) ∧
    (∃ t, exec (.wrCfgQuality 9#32) State.reset = .next t ∧ t.cfgQuality ≠ State.reset.cfgQuality) ∧
    (∃ t, exec (.wrCfgChmode 9#32) State.reset = .next t ∧ t.cfgChmode ≠ State.reset.cfgChmode) ∧
    (∃ t, exec (.wrCfgFormat 9#32) State.reset = .next t ∧ t.cfgFormat ≠ State.reset.cfgFormat) ∧
    (∃ t, exec (.wrCfgSfreq 9#32) State.reset = .next t ∧ t.cfgSfreq ≠ State.reset.cfgSfreq) ∧
    (∃ t, exec (.wrPcmLen 9#32) State.reset = .next t ∧ t.pcmLen ≠ State.reset.pcmLen) ∧
    (∃ t, exec (.wrOutCapacity 9#32) State.reset = .next t ∧ t.outCapacity ≠ State.reset.outCapacity) :=
  ⟨⟨_, rfl, by decide⟩, ⟨_, rfl, by decide⟩, ⟨_, rfl, by decide⟩, ⟨_, rfl, by decide⟩, ⟨_, rfl, by decide⟩,
    ⟨_, rfl, by decide⟩, _, rfl, by decide⟩

theorem witness_ActiveConfigurationIsImmutable : ∃ t, exec .configure created = .next t ∧ t.actSfreq = 44100 :=
  ⟨_, rfl, by decide⟩

/-- The counter at its last value, a session that ends, and an instruction that does not touch the counter. -/
theorem witness_BlockCounterCountsSuccessfulEncodes :
    (∃ t, State.admitsEncode { ready with blockCount := 0xFFFFFFFFFFFFFFFF#64 } ∧
      exec .encode { ready with blockCount := 0xFFFFFFFFFFFFFFFF#64 } = .next t) ∧
    (∃ t, ready.live ∧ exec .destroy ready = .next t) ∧
    (∃ t, created.session = .uninitialized ∧ created.stagingLegal ∧ exec .configure created = .next t) ∧
    (∃ t, ¬ (Instr.getErr = .encode ∧ ready.admitsEncode) ∧ Instr.getErr ≠ .create ∧
      ¬ (Instr.getErr = .destroy ∧ ready.live) ∧
      ¬ (Instr.getErr = .configure ∧ ready.session = .uninitialized ∧ ready.stagingLegal) ∧
      exec .getErr ready = .next t) := by
  have h : State.admitsEncode { ready with blockCount := 0xFFFFFFFFFFFFFFFF#64 } := ready_admits
  exact ⟨⟨_, h, execEncode_admitted h⟩, ⟨_, ready_live, rfl⟩, ⟨_, rfl, created_stagingLegal, rfl⟩,
    _, nofun, nofun, nofun, nofun, rfl⟩

/-- One state for each of the checks, the lengths and the capacity one off. -/
theorem witness_EncodeRefusedByAnyCheck :
    (created.live ∧ created.session = .uninitialized) ∧
    (ready.live ∧ ({ ready with actFormat := 3 } : State).actFormat ≠ 0) ∧
    (readyMono.actChmode = 2 ∧ ({ readyMono with pcmLen := 512 } : State).pcmLen ≠ 256) ∧
    (ready.actChmode ≠ 2 ∧ ({ ready with pcmLen := 511 } : State).pcmLen ≠ 512) ∧
    ({ ready with outCapacity := 332 } : State).outCapacity.toNat < 3 + payloadBytes lep10 ready.actQuality :=
  ⟨⟨created_live, rfl⟩, ⟨ready_live, by decide⟩, by decide, by decide, by decide⟩

/-- The three qualities and the three channel modes, and the bytes next to the stored run. -/
theorem witness_EncodeCommitsResultsAndOverlap :
    (ready.admitsEncode ∧ ready.actQuality = 0 ∧ ready.actChmode ≠ 2) ∧
    (readyDual.admitsEncode ∧ readyDual.actQuality = 1 ∧ readyDual.actChmode ≠ 2) ∧
    (readyMono.admitsEncode ∧ readyMono.actQuality = 2 ∧ readyMono.actChmode = 2) ∧
    0x3FF < frameBase ∧ frameBase + (3 + payloadBytes lep10 ready.actQuality) ≤ 0x54D :=
  ⟨⟨ready_admits, by decide⟩, ⟨readyDual_admits, by decide⟩, ⟨readyMono_admits, by decide⟩, by decide, by decide⟩

theorem witness_EncodeWritesTheFrame :
    (∃ t, ready.admitsEncode ∧ ready.actLegal ∧ exec .encode ready = .next t) ∧
    (∃ t, readyMono.admitsEncode ∧ readyMono.actLegal ∧ exec .encode readyMono = .next t) :=
  ⟨⟨_, ready_admits, ⟨.inl rfl, .inl rfl, .inl rfl, .inl rfl⟩, execEncode_admitted ready_admits⟩,
    _, readyMono_admits, ⟨.inr (.inr rfl), .inr (.inr rfl), .inl rfl, .inr (.inr (.inr rfl))⟩,
    execEncode_admitted readyMono_admits⟩

/-- The last sample of the right channel, and of a Mono block. -/
theorem witness_SampleIsInTwoConsecutiveWindows :
    (∃ t, ready.admitsEncode ∧ exec .encode ready = .next t ∧ 2 = nch lep10 ready.actChmode ∧ 1 < 2 ∧ 127 < 128) ∧
    (∃ t, readyMono.admitsEncode ∧ exec .encode readyMono = .next t ∧ 1 = nch lep10 readyMono.actChmode ∧
      0 < 1 ∧ 127 < 128) :=
  ⟨⟨_, ready_admits, execEncode_admitted ready_admits, rfl, by decide, by decide⟩,
    _, readyMono_admits, execEncode_admitted readyMono_admits, rfl, by decide, by decide⟩

theorem zeroBlock_read : ∀ o < 512, Memory.read zeroBlock (pcmBase + o) = some 0#8 := by decide +kernel

theorem readySilent_blockSilent : readySilent.blockSilent := fun o ho => by
  have h : o < 512 := ho
  simp only [pcmByte, byteAt, show readySilent.mem = zeroBlock from rfl, zeroBlock_read o h]
  rfl

theorem silence_zero (j : Fin 128) : silence[j] = 0#32 := by
  rw [silence, Fin.getElem_fin, Vector.getElem_replicate]

theorem witness_SilentBlockGivesTheSilentFrame :
    ∃ t, readySilent.admitsEncode ∧ readySilent.blockSilent ∧ (∀ j : Fin 128, readySilent.ovl0[j] = 0#32) ∧
      (readySilent.actChmode ≠ 2 → ∀ j : Fin 128, readySilent.ovl1[j] = 0#32) ∧ exec .encode readySilent = .next t :=
  ⟨_, readySilent_admits, readySilent_blockSilent, silence_zero, fun _ => silence_zero,
    execEncode_admitted readySilent_admits⟩

/-- The first zero block comes after a non-zero one: OVL[0] holds F32(1). -/
def afterSound : State := { readySilent with ovl0 := Vector.replicate 128 0x3F800000#32 }

theorem afterSound_admits : afterSound.admitsEncode := readySilent_admits

theorem witness_SilenceDecaysInOneBlock :
    ∃ t u w, afterSound.admitsEncode ∧ afterSound.blockSilent ∧ exec .encode afterSound = .next t ∧
      exec .encode t = .next u ∧ readySilent.admitsEncode ∧ readySilent.blockSilent ∧
      readySilent.ovl0 = silence ∧ readySilent.ovl1 = silence ∧ readySilent.actQuality = afterSound.actQuality ∧
      readySilent.actChmode = afterSound.actChmode ∧ readySilent.actSfreq = afterSound.actSfreq ∧
      exec .encode readySilent = .next w := by
  have h : State.admitsEncode (commandDone (encodeCommit lep10 afterSound)) :=
    ⟨.inr rfl, afterSound_admits.2.1, afterSound_admits.2.2.1, afterSound_admits.2.2.2⟩
  exact ⟨_, _, _, afterSound_admits, readySilent_blockSilent, execEncode_admitted afterSound_admits,
    execEncode_admitted h, readySilent_admits, readySilent_blockSilent, rfl, rfl, rfl, rfl, rfl,
    execEncode_admitted readySilent_admits⟩

/-- Two sessions whose overlap differs before the first of two blocks. -/
theorem witness_FrameDependsOnTwoBlocksOnly :
    ∃ t₁ t₂ w₁ w₂, afterSound.admitsEncode ∧ readySilent.admitsEncode ∧ afterSound.ovl0 ≠ readySilent.ovl0 ∧
      exec .encode afterSound = .next t₁ ∧ exec .encode readySilent = .next t₂ ∧
      afterSound.actQuality = readySilent.actQuality ∧ afterSound.actChmode = readySilent.actChmode ∧
      afterSound.actSfreq = readySilent.actSfreq ∧
      (∀ o, o < 256 * nch lep10 afterSound.actChmode → pcmByte afterSound o = pcmByte readySilent o) ∧
      (∀ o, o < 256 * nch lep10 afterSound.actChmode → pcmByte t₁ o = pcmByte t₂ o) ∧
      t₁.admitsEncode ∧ t₂.admitsEncode ∧ exec .encode t₁ = .next w₁ ∧ exec .encode t₂ = .next w₂ := by
  have h1 : State.admitsEncode (commandDone (encodeCommit lep10 afterSound)) :=
    ⟨.inr rfl, afterSound_admits.2.1, afterSound_admits.2.2.1, afterSound_admits.2.2.2⟩
  have h2 : State.admitsEncode (commandDone (encodeCommit lep10 readySilent)) :=
    ⟨.inr rfl, readySilent_admits.2.1, readySilent_admits.2.2.1, readySilent_admits.2.2.2⟩
  refine ⟨_, _, _, _, afterSound_admits, readySilent_admits, fun e => ?_, execEncode_admitted afterSound_admits,
    execEncode_admitted readySilent_admits, rfl, rfl, rfl, fun _ _ => rfl, fun o ho => ?_, h1, h2,
    execEncode_admitted h1, execEncode_admitted h2⟩
  · exact absurd (congrArg (fun v : Vector F32 128 => v[0]) e) (by decide)
  · have h : o < 512 := ho
    rw [pcmByte, pcmByte, byteAt_encodeCommit, byteAt_encodeCommit, if_neg, if_neg]
    · rfl
    all_goals simp only [pcmBase, frameBase]; omega

/-- Two states that differ in the counter, the MTU, the capacity and the old frame. -/
theorem witness_FrameDependsOnSessionAndBlockOnly :
    ∃ t₁ t₂, readySilent.admitsEncode ∧
      State.admitsEncode { readySilent with blockCount := 7, actMtu := 0, outCapacity := 1000 } ∧
      (∀ o, o < 256 * nch lep10 readySilent.actChmode →
        pcmByte readySilent o = pcmByte { readySilent with blockCount := 7, actMtu := 0, outCapacity := 1000 } o) ∧
      exec .encode readySilent = .next t₁ ∧
      exec .encode { readySilent with blockCount := 7, actMtu := 0, outCapacity := 1000 } = .next t₂ := by
  have h : State.admitsEncode { readySilent with blockCount := 7, actMtu := 0, outCapacity := 1000 } :=
    ⟨.inl rfl, rfl, by rw [readySilent]; decide, by rw [readySilent]; decide⟩
  exact ⟨_, _, readySilent_admits, h, fun _ _ => rfl, execEncode_admitted readySilent_admits, execEncode_admitted h⟩

theorem witness_FailedEncodeLeavesNoTrace : ∃ t, ¬ created.admitsEncode ∧ exec .encode created = .next t :=
  ⟨_, created_not_admits, rfl⟩

/-- Two states whose second channels differ. -/
theorem witness_ChannelsAreTransformedAlone :
    overlap ready 0 = overlap { ready with ovl1 := Vector.replicate 128 0x3F800000#32 } 0 ∧
    ∀ j, j < 128 → pcmSample ready 2 0 j =
      pcmSample { ready with ovl1 := Vector.replicate 128 0x3F800000#32 } 2 0 j := ⟨rfl, fun _ _ => rfl⟩

/-- The rows of R202's table at both ends. -/
theorem witness_HeaderByteDecodesLosslessly :
    (44100, 0) ∈ [(44100, 0), (48000, 1), (88200, 2), (96000, 3)] ∧
    (96000, 3) ∈ [(44100, 0), (48000, 1), (88200, 2), (96000, 3)] ∧ 2 < 3 := by decide

/-- A zero sum of opposite signs; a sum with a tie, 2^24 + 1, between 2^24 and the next value. -/
theorem witness_AdditionRoundsToNearestEven :
    (isFinite 0x3F800000#32 = true ∧ isFinite 0xBF800000#32 = true ∧ units 0x3F800000#32 + units 0xBF800000#32 = 0) ∧
    (isFinite 0x4B800000#32 = true ∧ isFinite (fadd 0x4B800000#32 0x3F800000#32) = true ∧
      isFinite 0x4B800001#32 = true ∧
      |units 0x4B800000#32 + units 0x3F800000#32| < (2 ^ 25 - 1) * 2 ^ 252 ∧
      |units (fadd 0x4B800000#32 0x3F800000#32) - (units 0x4B800000#32 + units 0x3F800000#32)| =
        |units 0x4B800001#32 - (units 0x4B800000#32 + units 0x3F800000#32)|) := by decide +kernel

/-- 1.5 times the smallest subnormal, a tie between it and its double. -/
theorem witness_MultiplicationRoundsToNearestEven :
    isFinite 0x3FC00000#32 = true ∧ isFinite 0x00000001#32 = true ∧
    |units 0x3FC00000#32 * units 0x00000001#32| < (2 ^ 25 - 1) * 2 ^ 401 ∧
    isFinite (fmul 0x3FC00000#32 0x00000001#32) = true ∧
    |units (fmul 0x3FC00000#32 0x00000001#32) * 2 ^ 149 - units 0x3FC00000#32 * units 0x00000001#32| =
      |units 0x00000001#32 * 2 ^ 149 - units 0x3FC00000#32 * units 0x00000001#32| := by decide +kernel

theorem witness_RomWindowAndBasisBounds : 126 < 127 ∧ 127 < 128 ∧ 255 < 256 := by decide

theorem witness_TransformOfSilenceIsZero : (∀ n, n < 256 → (fun _ => 0#32 : Nat → F32) n = 0#32) ∧ 127 < 128 :=
  ⟨fun _ _ => rfl, by decide⟩

theorem witness_SingleSampleTransform :
    200 < 256 ∧ 0x8000#16 ≠ 0 ∧ single 0x8000#16 200 = f32OfSample 0x8000#16 ∧
    (∀ n, n < 256 → n ≠ 200 → single 0x8000#16 n = 0#32) ∧ 127 < 128 :=
  ⟨by decide, by decide, rfl, fun _ _ h => if_neg h, by decide⟩

theorem witness_CoefficientsStayFinite :
    (∀ n, n < 256 → ∃ x : BitVec 16, (fun _ => f32OfSample 0x8000#16 : Nat → F32) n = f32OfSample x) ∧ 127 < 128 :=
  ⟨fun _ _ => ⟨_, rfl⟩, by decide⟩

/-- 49152 / 32768 is a tie that goes to the even 2; -4210688 / 32768 is a tie below the clip; 8388608 / 32768 is 256,
above the clip; a NaN. -/
theorem witness_QuantizerIsTheClippedNearestInteger :
    (isFinite 0x47400000#32 = true ∧ 2 * |units 0x47400000#32 - 2 * 2 ^ 164| ≤ 2 ^ 164 ∧
      2 * |units 0x47400000#32 - 2 * 2 ^ 164| = 2 ^ 164 ∧ (2 : Int) % 2 = 0) ∧
    (isFinite 0xCA808000#32 = true ∧ 2 * |units 0xCA808000#32 - (-128) * 2 ^ 164| ≤ 2 ^ 164 ∧
      (-128 : Int) % 2 = 0) ∧
    (isFinite 0x4B000000#32 = true ∧ 2 * |units 0x4B000000#32 - 256 * 2 ^ 164| ≤ 2 ^ 164 ∧ (127 : Int) < 256) ∧
    isNaN 0x7FC00000#32 = true := by decide +kernel

/-- Two instances after reset are two blocks, also after a step, so their unwritten bytes are unrelated (log 22). -/
theorem test_system_reset_indices : (System.reset 2)[0].unitIndex = 0 ∧ (System.reset 2)[1].unitIndex = 1 := by
  simp [System.reset]
theorem test_step_keeps_index : (nextOf (step { withReset with unitIndex := 1 })).map State.unitIndex = some 1 := rfl

/-- Two instances; instance 0 has CREATE on its port. -/
theorem witness_InstancesAreIsolated :
    ∃ sys' : System 2, System.stepInstance #v[withCreate, ready] (0 : Fin 2) = .next sys' ∧ (1 : Fin 2) ≠ 0 :=
  ⟨_, rfl, by decide⟩

end Sys2Proof.Tests
end

section
/-! PROOFS. The step on a request: what it runs, and on which state (R10, R70). -/

namespace Sys2Proof.Machine

/-- A step with a request at the head of the coming actions decodes it and runs it on the state that has taken it. -/
theorem step_request {s : State} {r : Request} {rest : List PortEvent} (h : s.inputs = .request r :: rest) :
    step s = exec (decodeRequest r) (takeInput s rest) := by
  rw [step, h]

/-- A transaction survives its passage through a word of at least the 45 bits of format T (R91). -/
theorem ofNat_toNat_mod_two_pow (t : BitVec 45) {nbits : Nat} (h : 45 ≤ nbits) :
    BitVec.ofNat 45 (t.toNat % 2 ^ nbits) = t := by
  have hlt : t.toNat < 2 ^ nbits := t.isLt.trans_le (Nat.pow_le_pow_right (by decide) h)
  rw [Nat.mod_eq_of_lt hlt, BitVec.ofNat_toNat, BitVec.setWidth_eq]

/-- The word of a transaction is presented as that transaction's request, ahead of what the host does next. -/
theorem withFetchWord_inputs (s : State) (t : BitVec 45) {nbits : Nat} (h : 45 ≤ nbits) :
    (s.withFetchWord nbits t.toNat).inputs = .request (unpackRequest t) :: s.inputs := by
  rw [State.withFetchWord, ofNat_toNat_mod_two_pow t h]

/-- Taking the presented word's request leaves the state the word was presented in. -/
@[simp] theorem takeInput_withFetchWord (s : State) (nbits w : Nat) :
    takeInput (s.withFetchWord nbits w) s.inputs = s := rfl

/-- A step on a presented transaction runs its decoding on the state it was presented in. -/
theorem step_withFetchWord (s : State) (t : BitVec 45) {nbits : Nat} (h : 45 ≤ nbits) :
    step (s.withFetchWord nbits t.toNat) = exec (decode t) s := by
  rw [step_request (withFetchWord_inputs s t h), takeInput_withFetchWord, decode]

/-- Settles O9: the request at the head of the list by `step_request`, the interface's word by `step_withFetchWord`,
whose 48 bits hold the 45 of format T. -/
theorem stepRunsTheDecodedRequest : Obligations.StepRunsTheDecodedRequest := by
  unfold Obligations.StepRunsTheDecodedRequest
  constructor
  · rintro s r rest _ hinputs rfl
    exact step_request hinputs
  · intro s t
    exact step_withFetchWord s t (by decide)

end Sys2Proof.Machine
end

section
/-! PROOFS. The port registers as one family, and everything one instruction can do, said once. -/

namespace Sys2Proof.Machine

/-! ### The seven port registers (R25, R28, R29) -/

/-- The name of a port register. -/
inductive PortRegister where
  | cfgMtu
  | cfgQuality
  | cfgChmode
  | cfgFormat
  | cfgSfreq
  | pcmLen
  | outCapacity

/-- The value a port register holds. -/
def PortRegister.get : PortRegister → State → Word
  | .cfgMtu, s => s.cfgMtu
  | .cfgQuality, s => s.cfgQuality
  | .cfgChmode, s => s.cfgChmode
  | .cfgFormat, s => s.cfgFormat
  | .cfgSfreq, s => s.cfgSfreq
  | .pcmLen, s => s.pcmLen
  | .outCapacity, s => s.outCapacity

/-- The state with one port register replaced. -/
def PortRegister.set : PortRegister → Word → State → State
  | .cfgMtu, v, s => { s with cfgMtu := v }
  | .cfgQuality, v, s => { s with cfgQuality := v }
  | .cfgChmode, v, s => { s with cfgChmode := v }
  | .cfgFormat, v, s => { s with cfgFormat := v }
  | .cfgSfreq, v, s => { s with cfgSfreq := v }
  | .pcmLen, v, s => { s with pcmLen := v }
  | .outCapacity, v, s => { s with outCapacity := v }

/-- The write transaction of a port register (R94). -/
def PortRegister.write : PortRegister → Word → Instr
  | .cfgMtu, v => .wrCfgMtu v
  | .cfgQuality, v => .wrCfgQuality v
  | .cfgChmode, v => .wrCfgChmode v
  | .cfgFormat, v => .wrCfgFormat v
  | .cfgSfreq, v => .wrCfgSfreq v
  | .pcmLen, v => .wrPcmLen v
  | .outCapacity, v => .wrOutCapacity v

/-- A port register's write stores the word and is answered OK (R67). -/
theorem exec_portRegister_write (r : PortRegister) (v : Word) (s : State) :
    exec (r.write v) s = .next (answerWrite (r.set v s)) := by
  cases r <;> rfl

@[simp] theorem PortRegister.get_set_self (r : PortRegister) (v : Word) (s : State) : r.get (r.set v s) = v := by
  cases r <;> rfl

theorem PortRegister.get_set_of_ne {r q : PortRegister} (h : r ≠ q) (v : Word) (s : State) :
    r.get (q.set v s) = r.get s := by
  cases q <;> cases r <;> simp [PortRegister.get, PortRegister.set] at h ⊢

/-- A port register's write leaves everything but the seven registers. -/
theorem PortRegister.set_frame (r : PortRegister) (v : Word) (s : State) :
    r.set v s =
      { s with
        cfgMtu := (r.set v s).cfgMtu, cfgQuality := (r.set v s).cfgQuality, cfgChmode := (r.set v s).cfgChmode,
        cfgFormat := (r.set v s).cfgFormat, cfgSfreq := (r.set v s).cfgSfreq, pcmLen := (r.set v s).pcmLen,
        outCapacity := (r.set v s).outCapacity } := by
  cases r <;> rfl

/-! ### What one instruction can do -/

/-- `Effect s i t`: the ways in which `i` can take `s` to `t`, each under its guard. The four commands succeed with
their own writes, a command that does not succeed raises an error, and what is no command is a read, a port register's
write, LDPCM or BUS.ERR. -/
inductive Effect (s : State) : Instr → State → Prop where
  /-- CREATE (R110). -/
  | create : Effect s .create (commandDone { sessionDefaults s with session := .uninitialized })
  /-- A successful CONFIGURE (R113, R115). -/
  | configure (hsession : s.session = .uninitialized) (hlegal : s.stagingLegal) :
      Effect s .configure (commandDone (configureCommit s))
  /-- A successful ENCODE (R141). -/
  | encode (hadmits : s.admitsEncode) : Effect s .encode (commandDone (encodeCommit lep10 s))
  /-- A successful DESTROY (R120). -/
  | destroy (hlive : s.live) : Effect s .destroy (commandDone { sessionDefaults s with session := .destroyed })
  /-- A command that does not succeed (R224, R129). -/
  | raised {i : Instr} {code : ErrorCode} (hcommand : isCommand i = true) (hcreate : i ≠ .create)
      (hconfigure : ¬ (i = .configure ∧ s.session = .uninitialized ∧ s.stagingLegal))
      (hencode : ¬ (i = .encode ∧ s.admitsEncode)) (hdestroy : ¬ (i = .destroy ∧ s.live))
      (hcode : code = .fatal ∨ code = .illegalParameter) : Effect s i (raiseError s code)
  /-- A read (R66). -/
  | read {i : Instr} (hread : isRead i = true) (d : Word) : Effect s i (answer s d)
  /-- A write of a port register (R67). -/
  | portWrite (r : PortRegister) (v : Word) : Effect s (r.write v) (answerWrite (r.set v s))
  /-- LDPCM (R67). -/
  | ldpcm (w : BitVec 7) (v : Word) : Effect s (.ldpcm w v) (answerWrite (storeWord s (pcmWordOffset w) v))
  /-- BUS.ERR (R68). -/
  | busErr (we : Bool) (addr : Addr) (wdata : Word) : Effect s (.busErr we addr wdata) (answerError s)

/-- A read only answers (R66). -/
theorem exec_read {i : Instr} (hi : isRead i = true) (s : State) : ∃ d, exec i s = .next (answer s d) := by
  cases i <;> simp only [isRead, Bool.false_eq_true] at hi <;> exact ⟨_, rfl⟩

/-- An instruction that is neither command nor read: the seven port register writes, LDPCM and BUS.ERR. -/
theorem exec_effect_of_write {i : Instr} (hc : isCommand i = false) (hr : isRead i = false) (s : State) :
    ∃ t, exec i s = .next t ∧ Effect s i t := by
  cases i <;> simp only [isCommand, isRead, Bool.true_eq_false] at hc hr
  case wrCfgMtu v => exact ⟨_, exec_portRegister_write .cfgMtu v s, .portWrite .cfgMtu v⟩
  case wrCfgQuality v => exact ⟨_, exec_portRegister_write .cfgQuality v s, .portWrite .cfgQuality v⟩
  case wrCfgChmode v => exact ⟨_, exec_portRegister_write .cfgChmode v s, .portWrite .cfgChmode v⟩
  case wrCfgFormat v => exact ⟨_, exec_portRegister_write .cfgFormat v s, .portWrite .cfgFormat v⟩
  case wrCfgSfreq v => exact ⟨_, exec_portRegister_write .cfgSfreq v s, .portWrite .cfgSfreq v⟩
  case wrPcmLen v => exact ⟨_, exec_portRegister_write .pcmLen v s, .portWrite .pcmLen v⟩
  case wrOutCapacity v => exact ⟨_, exec_portRegister_write .outCapacity v s, .portWrite .outCapacity v⟩
  case ldpcm w v => exact ⟨_, rfl, .ldpcm w v⟩
  case busErr we addr wdata => exact ⟨_, rfl, .busErr we addr wdata⟩

/-- Every instruction that answers a next state has one of the effects above. -/
theorem exec_effect {i : Instr} {s t : State} (h : exec i s = .next t) : Effect s i t := by
  by_cases hc : isCommand i = true
  · rcases exec_command_inversion hc h with
      ⟨rfl, rfl⟩ | ⟨rfl, hsession, hlegal, rfl⟩ | ⟨rfl, hadmits, rfl⟩ | ⟨rfl, hlive, rfl⟩ |
      ⟨hcreate, hconfigure, hencode, hdestroy, code, hcode, rfl⟩
    · exact .create
    · exact .configure hsession hlegal
    · exact .encode hadmits
    · exact .destroy hlive
    · exact .raised hc hcreate hconfigure hencode hdestroy hcode
  by_cases hr : isRead i = true
  · obtain ⟨d, hd⟩ := exec_read hr s
    rw [← Host.Outcome.next.inj (hd.symm.trans h)]
    exact .read hr d
  · obtain ⟨u, hu, heffect⟩ := exec_effect_of_write (by simpa using hc) (by simpa using hr) s
    rwa [← Host.Outcome.next.inj (hu.symm.trans h)]

end Sys2Proof.Machine
end

section
/-! PROOFS. The step without a request, and the reset state (R22, R49, R250). -/

namespace Sys2Proof.Machine

/-- With nothing on the port a step is the idle step. -/
theorem step_idle {s : State} (h : s.inputs = []) : step s = .next (idle s) := by
  rw [step, h]

/-- A step on a reset is the hardware reset, whatever request it cuts short. -/
theorem step_reset {s : State} {cut : Option Request} {rest : List PortEvent} (h : s.inputs = .reset cut :: rest) :
    step s = .next (hardwareReset (takeInput s rest)) := by
  rw [step, h]

/-- Settles O10: the idle step by `step_idle`, the hardware reset by `step_reset`. -/
theorem stepWithoutRequest : Obligations.StepWithoutRequest := by
  unfold Obligations.StepWithoutRequest
  exact ⟨fun _ h => step_idle h, fun _ _ _ h => step_reset h⟩

/-- The reset state with the three fields of the model's own at any value: the state after any hardware reset. -/
def resetWith (inputs : List PortEvent) (resets unitIndex : Nat) : State :=
  { State.reset with inputs := inputs, resets := resets, unitIndex := unitIndex }

theorem hardwareReset_eq_resetWith (s : State) :
    hardwareReset s = resetWith s.inputs (s.resets + 1) s.unitIndex := rfl

/-- The origin of a run and the state after a step on a reset are reset states. -/
theorem eq_resetWith {t : State}
    (h : t = State.reset ∨ ∃ s cut rest, s.inputs = .reset cut :: rest ∧ step s = .next t) :
    ∃ inputs resets unitIndex, t = resetWith inputs resets unitIndex := by
  rcases h with rfl | ⟨s, cut, rest, hinputs, hstep⟩
  · exact ⟨[], 0, 0, rfl⟩
  · rw [step_reset hinputs] at hstep
    exact ⟨_, _, _, (Host.Outcome.next.inj hstep).symm.trans (hardwareReset_eq_resetWith _)⟩

theorem silence_getElem (j : Fin 128) : silence[j] = 0#32 := by
  rw [silence, Fin.getElem_fin, Vector.getElem_replicate]

/-- The high half of a zero counter. -/
theorem exec_rdBlockCountHi_of_zero {s : State} (h : s.blockCount = 0) :
    exec .rdBlockCountHi s = .next (answer s 0#32) := by
  have hanswer : exec .rdBlockCountHi s = .next (answer s (s.blockCount.extractLsb' 32 32)) := rfl
  rw [hanswer, h, show (0 : BitVec 64).extractLsb' 32 32 = 0#32 by decide]

/-- The nine status, query and result reads that R49 names answer 0 in a reset state. -/
theorem exec_read_resetWith (inputs : List PortEvent) (resets unitIndex : Nat) :
    ∀ i ∈ [Instr.rdStatus, .getErr, .getBr, .getSf, .rdBlockCountLo, .rdBlockCountHi, .rdConsumed, .rdFrameLen,
      .rdFrameCount],
      exec i (resetWith inputs resets unitIndex) = .next (answer (resetWith inputs resets unitIndex) 0#32) := by
  simp only [List.forall_mem_cons, List.not_mem_nil, false_imp_iff, implies_true, and_true]
  exact ⟨rfl, rfl, rfl, rfl, rfl, exec_rdBlockCountHi_of_zero rfl, rfl, rfl, rfl⟩

/-- Settles O11: by `eq_resetWith` the state is a reset state, whose items are R49's values and whose reads are
`exec_read_resetWith`. -/
theorem resetStateAsStated : Obligations.ResetStateAsStated := by
  unfold Obligations.ResetStateAsStated
  intro t ht
  obtain ⟨inputs, resets, unitIndex, rfl⟩ := eq_resetWith ht
  exact ⟨rfl, rfl, rfl, rfl, rfl, rfl, rfl, fun j => ⟨silence_getElem j, silence_getElem j⟩, rfl, rfl, rfl, rfl,
    rfl, rfl, rfl, rfl, rfl, rfl, rfl, exec_read_resetWith inputs resets unitIndex⟩

end Sys2Proof.Machine
end

section
/-! PROOFS. The invariant: the reset state meets it, each operation of the meanings keeps it, and so does a step. -/

namespace Sys2Proof.Machine

/-! ### Overlap buffers (R38, R39, R148) -/

/-- +0.0 is F32(0), so a silent buffer holds samples. -/
theorem samplesOnly_silence : samplesOnly silence := fun j => ⟨0, by rw [silence_getElem]; decide⟩

/-- What ENCODE retains are conversions of 16-bit samples. -/
theorem samplesOnly_newOverlap (s : State) (channels channel : Nat) :
    samplesOnly (newOverlap lep10 s channels channel) := fun j => ⟨pcmSample s channels channel j, by
  rw [newOverlap, Fin.getElem_fin, Vector.getElem_ofFn, newSample, lep10_ofSample]⟩

/-! ### Each operation keeps the invariant -/

/-- The reset state meets the invariant, whatever the host does next and whichever block it is. -/
theorem inv_resetWith (inputs : List PortEvent) (resets unitIndex : Nat) : Inv (resetWith inputs resets unitIndex) where
  mem_wf := rfl
  error_raised := .inl rfl
  configured_legal := nofun
  unconfigured_default _ := ⟨⟨rfl, rfl, rfl, rfl, rfl⟩, rfl, rfl, rfl, rfl, rfl, rfl⟩
  ready_fresh := nofun
  encoding_results := nofun
  overlap_samples := ⟨samplesOnly_silence, samplesOnly_silence⟩
  mono_second_silent _ := rfl
  error_no_data := nofun

theorem inv_idle {s : State} (hs : Inv s) : Inv (idle s) :=
  { hs with error_no_data := nofun }

theorem inv_takeInput {s : State} (hs : Inv s) (rest : List PortEvent) : Inv (takeInput s rest) :=
  { hs with }

theorem inv_answer {s : State} (hs : Inv s) (rdata : Word) : Inv (answer s rdata) :=
  { hs with error_no_data := by rintro _ ⟨⟩ ⟨⟩ }

theorem inv_answerError {s : State} (hs : Inv s) : Inv (answerError s) :=
  { hs with error_no_data := by rintro _ ⟨⟩ -; rfl }

theorem inv_withError {s : State} (hs : Inv s) {code : ErrorCode}
    (hcode : code = .none ∨ code = .fatal ∨ code = .illegalParameter) : Inv { s with lastError := code } :=
  { hs with error_raised := hcode }

theorem inv_raiseError {s : State} (hs : Inv s) {code : ErrorCode}
    (hcode : code = .fatal ∨ code = .illegalParameter) : Inv (raiseError s code) :=
  inv_answer (inv_withError hs (.inr hcode)) _

theorem inv_commandDone {s : State} (hs : Inv s) : Inv (commandDone s) :=
  inv_answer (inv_withError hs (.inl rfl)) _

/-- No clause speaks of a port register. -/
theorem inv_portRegister_set {s : State} (hs : Inv s) (r : PortRegister) (v : Word) : Inv (r.set v s) := by
  rw [r.set_frame]
  exact { hs with }

theorem inv_storeWord_pcm {s : State} (hs : Inv s) (w : BitVec 7) (v : Word) :
    Inv (storeWord s (pcmWordOffset w) v) :=
  { hs with mem_wf := wf_storeWord_pcm w v hs.mem_wf }

/-- SessionDefaults() meets the clauses of every session that is not configured (R48). -/
theorem inv_sessionDefaults {s : State} (hs : Inv s) {q : SessionState} (hq : isConfigured q = false) :
    Inv { sessionDefaults s with session := q } where
  mem_wf := hs.mem_wf
  error_raised := hs.error_raised
  configured_legal h := absurd (hq.symm.trans h) Bool.false_ne_true
  unconfigured_default _ := ⟨⟨rfl, rfl, rfl, rfl, rfl⟩, rfl, rfl, rfl, rfl, rfl, rfl⟩
  ready_fresh _ := ⟨rfl, rfl, rfl, rfl, rfl, rfl⟩
  encoding_results h := by cases h; cases hq
  overlap_samples := ⟨samplesOnly_silence, samplesOnly_silence⟩
  mono_second_silent _ := rfl
  error_no_data := hs.error_no_data

/-- A successful CONFIGURE makes the legal staging values active; the result registers it leaves are still at their
defaults, because no configured session precedes it (R113, R115). -/
theorem inv_configureCommit {s : State} (hs : Inv s) (hsession : s.session = .uninitialized)
    (hlegal : s.stagingLegal) : Inv (configureCommit s) where
  mem_wf := hs.mem_wf
  error_raised := hs.error_raised
  configured_legal _ := by
    obtain ⟨hsfreq, hchmode, hquality, hformat⟩ := hlegal
    exact ⟨hquality, hchmode, hformat, hsfreq⟩
  unconfigured_default := nofun
  ready_fresh _ := by
    obtain ⟨-, -, -, -, hconsumed, hframeLen, hframeCount⟩ := hs.unconfigured_default (by rw [hsession]; rfl)
    exact ⟨rfl, rfl, rfl, hconsumed, hframeLen, hframeCount⟩
  encoding_results := nofun
  overlap_samples := ⟨samplesOnly_silence, samplesOnly_silence⟩
  mono_second_silent _ := rfl
  error_no_data := hs.error_no_data

/-- A successful ENCODE keeps the configuration, describes its frame in the result registers and retains samples, in
Mono of the first channel only (R141, R148). -/
theorem inv_encodeCommit {s : State} (hs : Inv s) (hadmits : s.admitsEncode) : Inv (encodeCommit lep10 s) where
  mem_wf := wf_encodeCommit hs.mem_wf
  error_raised := hs.error_raised
  configured_legal _ := by
    obtain ⟨hconfigured, -⟩ := (admitsEncode_iff s).mp hadmits
    exact hs.configured_legal hconfigured
  unconfigured_default := nofun
  ready_fresh := nofun
  encoding_results _ := by
    obtain ⟨-, hformat, -⟩ := hadmits
    exact ⟨hformat, rfl, rfl, rfl⟩
  overlap_samples := by
    obtain ⟨-, hovl1⟩ := hs.overlap_samples
    refine ⟨samplesOnly_newOverlap s _ 0, ?_⟩
    rw [encodeCommit_ovl1]
    split
    · exact samplesOnly_newOverlap s _ 1
    · exact hovl1
  mono_second_silent hmono := by
    rw [encodeCommit_actChmode] at hmono
    rw [encodeCommit_ovl1, hmono, nch_lep10, if_neg (by decide)]
    exact hs.mono_second_silent hmono
  error_no_data := hs.error_no_data

/-! ### Every instruction and every step keep it -/

theorem inv_of_effect {i : Instr} {s t : State} (hs : Inv s) (h : Effect s i t) : Inv t := by
  cases h with
  | create => exact inv_commandDone (inv_sessionDefaults hs rfl)
  | configure hsession hlegal => exact inv_commandDone (inv_configureCommit hs hsession hlegal)
  | encode hadmits => exact inv_commandDone (inv_encodeCommit hs hadmits)
  | destroy hlive => exact inv_commandDone (inv_sessionDefaults hs rfl)
  | raised _ _ _ _ _ hcode => exact inv_raiseError hs hcode
  | read _ d => exact inv_answer hs d
  | portWrite r v => exact inv_answer (inv_portRegister_set hs r v) _
  | ldpcm w v => exact inv_answer (inv_storeWord_pcm hs w v) _
  | busErr => exact inv_answerError hs

/-- Settles O12: the reset state is the `inv_resetWith` of a first block with no coming actions. -/
theorem resetMeetsInvariant : Obligations.ResetMeetsInvariant := by
  unfold Obligations.ResetMeetsInvariant
  exact inv_resetWith [] 0 0

/-- Settles O13, by the host's next action: none and a reset by the lemma on that state, a request by
`inv_of_effect`. -/
theorem stepKeepsInvariant : Obligations.StepKeepsInvariant := by
  unfold Obligations.StepKeepsInvariant
  intro s t hs hstep
  match hinputs : s.inputs with
  | [] =>
    rw [step_idle hinputs] at hstep
    exact Host.Outcome.next.inj hstep ▸ inv_idle hs
  | .reset cut :: rest =>
    rw [step_reset hinputs] at hstep
    exact Host.Outcome.next.inj hstep ▸ inv_resetWith _ _ _
  | .request r :: rest =>
    rw [step_request hinputs] at hstep
    exact inv_of_effect (inv_takeInput hs rest) (exec_effect hstep)

/-- Under the invariant the gate of R34 changes nothing: an unconfigured session stores 0. -/
theorem sfreqWord_of_inv {s : State} (hs : Inv s) : sfreqWord s = s.actSfreq := by
  rw [sfreqWord]
  by_cases hconfigured : isConfigured s.session = true
  · rw [if_pos hconfigured]
  · obtain ⟨⟨-, -, -, -, hsfreq⟩, -⟩ := hs.unconfigured_default (by simpa using hconfigured)
    rw [if_neg hconfigured, hsfreq]
    rfl

/-- Settles O21: GETSF answers the gated value, which `sfreqWord_of_inv` makes the stored one. -/
theorem sfreqReadsTheStoredValue : Obligations.SfreqReadsTheStoredValue := by
  unfold Obligations.SfreqReadsTheStoredValue
  intro s hs
  have hanswer : exec .getSf s = .next (answer s (sfreqWord s)) := rfl
  rw [hanswer, sfreqWord_of_inv hs, answer]

end Sys2Proof.Machine
end

section
/-! PROOFS. Who writes the buffers, the port registers and the active configuration (R25 to R29, R36, R37). -/

namespace Sys2Proof.Machine

/-! ### The buffers -/

/-- A byte that an instruction changes is one of LDPCM's word or of the frame of a successful ENCODE. -/
theorem changed_byte_of_effect {i : Instr} {s t : State} (h : Effect s i t) {a : Nat}
    (hne : byteAt t a ≠ byteAt s a) :
    (∃ w v, i = .ldpcm w v ∧ pcmWordOffset w ≤ a ∧ a < pcmWordOffset w + 4) ∨
    (i = .encode ∧ s.admitsEncode ∧ frameBase ≤ a ∧ a < frameBase + (3 + payloadBytes lep10 s.actQuality)) := by
  cases h with
  | encode hadmits =>
    rw [byteAt_encodeCommit] at hne
    split at hne
    next hrange => exact .inr ⟨rfl, hadmits, hrange⟩
    next => exact absurd rfl hne
  | ldpcm w v =>
    have hstore : byteAt (answerWrite (storeWord s (pcmWordOffset w) v)) a =
        byteAt (storeWord s (pcmWordOffset w) v) a := rfl
    rw [hstore, byteAt_storeWord] at hne
    split at hne
    next hrange => exact .inl ⟨w, v, rfl, hrange⟩
    next => exact absurd rfl hne
  | portWrite r v => exact absurd (by rw [r.set_frame]; rfl) hne
  | create | configure | destroy | raised | read | busErr => exact absurd rfl hne

/-- Settles O27: by `changed_byte_of_effect` a changed byte is LDPCM's or ENCODE's, and PCM_BUF and FRAME_BUF lie
apart (R62). -/
theorem buffersWrittenOnlyByTheirInstruction : Obligations.BuffersWrittenOnlyByTheirInstruction := by
  unfold Obligations.BuffersWrittenOnlyByTheirInstruction
  intro i s t h
  constructor
  · intro o ho hne
    rcases changed_byte_of_effect (exec_effect h) hne with ⟨w, v, hi, hlo, hhi⟩ | ⟨-, -, hlo, -⟩
    · simp only [pcmWordOffset] at hlo hhi
      exact ⟨w, v, hi, by omega, by omega⟩
    · simp only [frameBase, pcmBase] at hlo
      omega
  · intro o ho hne
    rcases changed_byte_of_effect (exec_effect h) hne with ⟨w, v, -, -, hhi⟩ | ⟨hi, hadmits, -, hhi⟩
    · have hw := w.isLt
      simp only [pcmWordOffset, frameBase, pcmBase] at hhi
      omega
    · exact ⟨hi, hadmits, by omega⟩

/-! ### The port registers -/

/-- A port register that an instruction changes is changed by its own write, to the word written. -/
theorem changed_portRegister_of_effect {i : Instr} {s t : State} (h : Effect s i t) (r : PortRegister)
    (hne : r.get t ≠ r.get s) : i = r.write (r.get t) := by
  cases h with
  | portWrite q v =>
    have hset : r.get (answerWrite (q.set v s)) = r.get (q.set v s) := by cases r <;> rfl
    rw [hset] at hne ⊢
    by_cases hrq : r = q
    · rw [hrq, PortRegister.get_set_self]
    · exact absurd (PortRegister.get_set_of_ne hrq v s) hne
  | create | configure | encode | destroy | raised | read | ldpcm | busErr => exact absurd (by cases r <;> rfl) hne

/-- Settles O37: `changed_portRegister_of_effect` at each of the seven registers. -/
theorem portRegistersAreTheHosts : Obligations.PortRegistersAreTheHosts := by
  unfold Obligations.PortRegistersAreTheHosts
  intro i s t h
  have hchanged := changed_portRegister_of_effect (exec_effect h)
  exact ⟨hchanged .cfgMtu, hchanged .cfgQuality, hchanged .cfgChmode, hchanged .cfgFormat, hchanged .cfgSfreq,
    hchanged .pcmLen, hchanged .outCapacity⟩

/-! ### The active configuration -/

/-- Settles O38, by the effect of the instruction: a successful CONFIGURE copies, CREATE and DESTROY zero, and the
other effects leave the five items. -/
theorem activeConfigurationIsImmutable : Obligations.ActiveConfigurationIsImmutable := by
  unfold Obligations.ActiveConfigurationIsImmutable
  intro i s t h
  cases exec_effect h with
  | configure hsession hlegal => exact .inr (.inl ⟨rfl, hsession, hlegal, rfl, rfl, rfl, rfl, rfl⟩)
  | create => exact .inr (.inr ⟨.inl rfl, rfl, rfl, rfl, rfl, rfl⟩)
  | destroy hlive => exact .inr (.inr ⟨.inr ⟨rfl, hlive⟩, rfl, rfl, rfl, rfl, rfl⟩)
  | portWrite r v => rw [r.set_frame]; exact .inl ⟨rfl, rfl, rfl, rfl, rfl⟩
  | encode | raised | read | ldpcm | busErr => exact .inl ⟨rfl, rfl, rfl, rfl, rfl⟩

end Sys2Proof.Machine
end

section
/-! PROOFS. The port as R66, R67 and R68 write it: the decoder's tables walked beside the two rules' pseudocode. -/

namespace Sys2Proof.Machine

/-! ### Offsets -/

/-- The decoder's test for one offset, on numbers. -/
theorem addr_eq_ofNat_iff (addr : Addr) {n : Nat} (h : n < 2 ^ 12) :
    addr = BitVec.ofNat 12 n ↔ addr.toNat = n := by
  rw [BitVec.toNat_eq, BitVec.toNat_ofNat, Nat.mod_eq_of_lt h]

/-- The word number in an aligned PCM_BUF offset names that offset (R62, R94). -/
theorem pcmWordOffset_extractLsb' {addr : Addr} (haligned : addr.toNat % 4 = 0)
    (hwindow : addr.extractLsb' 9 3 = 0b001#3) : pcmWordOffset (addr.extractLsb' 2 7) = addr.toNat := by
  rw [pcm_window_iff] at hwindow
  rw [pcmWordOffset, toNat_extractLsb'_addr, pcmBase]
  omega

/-- The word number in an aligned offset of RDFRM's window names that offset (R62, R94). -/
theorem frameWordOffset_rdfrm {addr : Addr} (haligned : addr.toNat % 4 = 0)
    (hwindow : addr.extractLsb' 8 4 = 0x4#4) : frameWordOffset (addr.extractLsb' 2 6).toNat = addr.toNat := by
  rw [rdfrm_window_iff] at hwindow
  rw [frameWordOffset, toNat_extractLsb'_addr, frameBase]
  omega

/-- The word number in an aligned offset of RDFRM.H1's window names that offset (R62, R94). -/
theorem frameWordOffset_rdfrmH1 {addr : Addr} (haligned : addr.toNat % 4 = 0)
    (hwindow : addr.extractLsb' 6 6 = 0b010100#6) :
    frameWordOffset (64 + (addr.extractLsb' 2 4).toNat) = addr.toNat := by
  rw [rdfrmH1_window_iff] at hwindow
  rw [frameWordOffset, toNat_extractLsb'_addr, frameBase]
  omega

/-- The word number in an aligned offset of RDFRM.H2's window names that offset (R62, R94). -/
theorem frameWordOffset_rdfrmH2 {addr : Addr} (haligned : addr.toNat % 4 = 0)
    (hwindow : addr.extractLsb' 4 8 = 0x54#8) :
    frameWordOffset (80 + (addr.extractLsb' 2 2).toNat) = addr.toNat := by
  rw [rdfrmH2_window_iff] at hwindow
  rw [frameWordOffset, toNat_extractLsb'_addr, frameBase]
  omega

/-! ### What the port answers to the outcomes of the two rules -/

/-- The outcome of a request for which a rule gives `ok` of this value, or no value: the error response. -/
def outcomeOf {α : Type} (s : State) (ok : α → State) : Option α → Host.Outcome State Fault Refusal
  | some x => .next (ok x)
  | none => .next (answerError s)

/-- The error response is given where the rule gives no value and only there. -/
theorem outcomeOf_cases {α : Type} (s : State) {ok : α → State}
    (hok : ∀ x, ∃ d, (ok x).response = some ⟨d, false⟩) (r : Option α) :
    (r = none → outcomeOf s ok r = .next (answerError s)) ∧
    (r ≠ none → ∃ t d, outcomeOf s ok r = .next t ∧ t.response = some ⟨d, false⟩) := by
  cases r with
  | none => exact ⟨fun _ => rfl, fun h => absurd rfl h⟩
  | some x =>
    obtain ⟨d, hd⟩ := hok x
    exact ⟨nofun, fun _ => ⟨ok x, d, rfl, hd⟩⟩

/-- One row of the decoder beside one line of a rule's pseudocode: where both tests say the same and both branches
agree, the whole agrees. -/
theorem exec_ite {α : Type} {c c' : Prop} [Decidable c] [Decidable c'] {i j : Instr} {s : State} {x y : α}
    (f : α → Host.Outcome State Fault Refusal) (htest : c ↔ c') (hthen : c' → exec i s = f x)
    (helse : ¬ c' → exec j s = f y) : exec (if c then i else j) s = f (if c' then x else y) := by
  by_cases hc : c'
  · rw [if_pos (htest.mpr hc), if_pos hc, hthen hc]
  · rw [if_neg (mt htest.mp hc), if_neg hc, helse hc]

/-! ### Reads (R66) -/

/-- A read is tested for alignment and then for its offset (R91). -/
theorem decodeRequest_read (addr : Addr) (v : Word) :
    decodeRequest ⟨false, addr, v⟩ =
      if addr.extractLsb' 0 2 ≠ 0#2 then .busErr false addr v else decodeRead addr v := rfl

/-- A read answers R66's data at its offset. The sixteen registers are the same offsets in the decoder and in the rule;
the decoder's four windows are then the rule's two buffers. -/
theorem exec_read_request (s : State) (addr : Addr) (v : Word) :
    exec (decodeRequest ⟨false, addr, v⟩) s = outcomeOf s (answer s) (busReadValue s addr.toNat) := by
  rw [decodeRequest_read]
  refine exec_ite _ (not_congr (aligned_iff addr)) (fun _ => rfl) fun haligned => ?_
  replace haligned : addr.toNat % 4 = 0 := not_not.mp haligned
  rw [decodeRead]
  iterate 16 refine exec_ite _ (addr_eq_ofNat_iff addr (by decide)) (fun _ => rfl) fun _ => ?_
  by_cases hpcm : addr.extractLsb' 9 3 = 0b001#3
  · have hrange := (pcm_window_iff addr).mp hpcm
    rw [if_pos hpcm, if_pos (by omega), ← pcmWordOffset_extractLsb' haligned hpcm]
    rfl
  rw [if_neg hpcm]
  by_cases hframe : addr.extractLsb' 8 4 = 0x4#4
  · have hrange := (rdfrm_window_iff addr).mp hframe
    rw [if_pos hframe, if_pos (by omega), ← frameWordOffset_rdfrm haligned hframe]
    rfl
  rw [if_neg hframe]
  by_cases hframeH1 : addr.extractLsb' 6 6 = 0b010100#6
  · have hrange := (rdfrmH1_window_iff addr).mp hframeH1
    rw [if_pos hframeH1, if_pos (by omega), ← frameWordOffset_rdfrmH1 haligned hframeH1]
    rfl
  rw [if_neg hframeH1]
  by_cases hframeH2 : addr.extractLsb' 4 8 = 0x54#8
  · have hrange := (rdfrmH2_window_iff addr).mp hframeH2
    rw [if_pos hframeH2, if_pos (by omega), ← frameWordOffset_rdfrmH2 haligned hframeH2]
    rfl
  · have hnotPcm := mt (pcm_window_iff addr).mpr hpcm
    have hnotFrame := mt (rdfrm_window_iff addr).mpr hframe
    have hnotFrameH1 := mt (rdfrmH1_window_iff addr).mpr hframeH1
    have hnotFrameH2 := mt (rdfrmH2_window_iff addr).mpr hframeH2
    rw [if_neg hframeH2, if_neg (by omega)]
    rfl

/-- Settles O6: `exec_read_request`, with R66's data or without. -/
theorem busReadsFollowTheMap : Obligations.BusReadsFollowTheMap := by
  unfold Obligations.BusReadsFollowTheMap
  intro s addr v
  rw [exec_read_request]
  cases busReadValue s addr.toNat <;> rfl

/-! ### Writes (R67) -/

/-- A write is tested for alignment and then for its offset (R91). -/
theorem decodeRequest_write (addr : Addr) (v : Word) :
    decodeRequest ⟨true, addr, v⟩ =
      if addr.extractLsb' 0 2 ≠ 0#2 then .busErr true addr v else decodeWrite addr v := rfl

/-- A write to another offset than CMD has R67's effect there. -/
theorem exec_write_request (s : State) {addr : Addr} (v : Word) (haddr : addr ≠ 0#12) :
    exec (decodeRequest ⟨true, addr, v⟩) s = outcomeOf s answerWrite (busWriteEffect s addr.toNat v) := by
  rw [decodeRequest_write]
  refine exec_ite _ (not_congr (aligned_iff addr)) (fun _ => rfl) fun haligned => ?_
  replace haligned : addr.toNat % 4 = 0 := not_not.mp haligned
  rw [decodeWrite, if_neg haddr]
  iterate 7 refine exec_ite _ (addr_eq_ofNat_iff addr (by decide)) (fun _ => rfl) fun _ => ?_
  have htest : addr.extractLsb' 9 3 = 0b001#3 ↔ 0x200 ≤ addr.toNat ∧ addr.toNat ≤ 0x3FC := by
    rw [pcm_window_iff]
    omega
  refine exec_ite _ htest (fun hrange => ?_) fun _ => rfl
  rw [← pcmWordOffset_extractLsb' haligned (htest.mpr hrange)]
  rfl

/-- A write to CMD runs the command of its word (R93). -/
theorem decodeRequest_cmd (v : Word) : decodeRequest ⟨true, 0#12, v⟩ = decodeCommand v := rfl

theorem isCommand_decodeCommand (v : Word) : isCommand (decodeCommand v) = true := by
  rw [decodeCommand]
  split_ifs <;> rfl

/-- Every instruction has a next state (R238). -/
theorem exec_next (i : Instr) (s : State) : ∃ t, exec i s = .next t := by
  cases i <;> exact ⟨_, rfl⟩

theorem isRead_of_isCommand {i : Instr} (hi : isCommand i = true) : isRead i = false := by
  cases i <;> simp only [isCommand, Bool.false_eq_true] at hi <;> rfl

theorem isCommand_portRegister_write (r : PortRegister) (v : Word) : isCommand (r.write v) = false := by
  cases r <;> rfl

/-- A command is answered OK with no data, whether it succeeded or failed (R67, R224). -/
theorem response_of_command_effect {i : Instr} {s t : State} (hi : isCommand i = true) (h : Effect s i t) :
    t.response = some ⟨0#32, false⟩ := by
  cases h with
  | create | configure | encode | destroy | raised => rfl
  | read hread => exact absurd ((isRead_of_isCommand hi).symm.trans hread) Bool.false_ne_true
  | portWrite r v => exact absurd ((isCommand_portRegister_write r v).symm.trans hi) Bool.false_ne_true
  | ldpcm | busErr => cases hi

/-- The outcome of a write to CMD. -/
theorem exec_cmd_response (s : State) (v : Word) :
    ∃ t, exec (decodeRequest ⟨true, 0#12, v⟩) s = .next t ∧ t.response = some ⟨0#32, false⟩ := by
  rw [decodeRequest_cmd]
  obtain ⟨t, ht⟩ := exec_next (decodeCommand v) s
  exact ⟨t, ht, response_of_command_effect (isCommand_decodeCommand v) (exec_effect ht)⟩

/-- Settles O7: elsewhere than at CMD by `exec_write_request`, at CMD by `decodeRequest_cmd` and
`exec_cmd_response`. -/
theorem busWritesFollowTheMap : Obligations.BusWritesFollowTheMap := by
  unfold Obligations.BusWritesFollowTheMap
  intro s addr v
  constructor
  · intro haddr
    rw [exec_write_request s v haddr]
    cases busWriteEffect s addr.toNat v <;> rfl
  · rintro rfl
    exact ⟨by rw [decodeRequest_cmd], exec_cmd_response s v⟩

/-! ### The error response (R68) -/

/-- One line of a rule's pseudocode gives no value where its test fails and the lines after it give none. -/
theorem ite_some_eq_none_iff {α : Type} {c : Prop} [Decidable c] {d : α} {x : Option α} :
    (if c then some d else x) = none ↔ ¬ c ∧ x = none := by
  split_ifs with hc <;> simp [hc]

/-- R66 gives no data exactly where R68 lists the read. -/
theorem busReadValue_eq_none_iff (s : State) {a : Nat} (ha : a < 0x1000) :
    busReadValue s a = none ↔ busErrorListed false a := by
  simp only [busReadValue, busErrorListed, ite_eq_left_iff, ← or_iff_not_imp_left, ite_some_eq_none_iff,
    Bool.false_eq_true, true_and, false_and, false_or, and_true]
  omega

/-- R67 gives no effect exactly where R68 lists the write, CMD apart. -/
theorem busWriteEffect_eq_none_iff (s : State) (v : Word) {a : Nat} (ha : a < 0x1000) (hcmd : a ≠ 0) :
    busWriteEffect s a v = none ↔ busErrorListed true a := by
  simp only [busWriteEffect, busErrorListed, ite_eq_left_iff, ← or_iff_not_imp_left, ite_some_eq_none_iff,
    Bool.true_eq_false, true_and, false_and, false_or, and_true]
  omega

/-- R68 does not list a write to CMD. -/
theorem not_busErrorListed_cmd : ¬ busErrorListed true 0 := by
  rw [busErrorListed]
  decide

/-- Settles O5: a read and a write elsewhere than at CMD get the error response where the rule's pseudocode gives none,
which is where R68 lists them; a write to CMD is never listed and always answered. -/
theorem busErrorExactlyWhereListed : Obligations.BusErrorExactlyWhereListed := by
  unfold Obligations.BusErrorExactlyWhereListed
  intro s we addr v
  have hlt : addr.toNat < 0x1000 := addr.isLt
  cases we with
  | false =>
    rw [exec_read_request, ← busReadValue_eq_none_iff s hlt]
    exact outcomeOf_cases s (fun d => ⟨d, rfl⟩) _
  | true =>
    by_cases haddr : addr = 0#12
    · subst haddr
      obtain ⟨t, ht, hresponse⟩ := exec_cmd_response s v
      exact ⟨fun h => absurd h not_busErrorListed_cmd, fun _ => ⟨t, 0#32, ht, hresponse⟩⟩
    · have hcmd : addr.toNat ≠ 0 := mt (addr_eq_ofNat_iff addr (by decide)).mpr haddr
      rw [exec_write_request s v haddr, ← busWriteEffect_eq_none_iff s v hlt hcmd]
      exact outcomeOf_cases s (fun _ => ⟨0#32, rfl⟩) _

end Sys2Proof.Machine
end

section
/-! PROOFS. The memory through the port: its canonical form, LDPCM, and what the reads of registers and buffers answer
(R63, R66, R67, R71). -/

namespace Sys2Proof.Machine

/-! ### The canonical form (log 4) -/

/-- Only LDPCM and a successful ENCODE touch the memory, each inside its buffer. -/
theorem wf_of_effect {i : Instr} {s t : State} (hs : s.mem.wf = true) (h : Effect s i t) : t.mem.wf = true := by
  cases h with
  | encode => exact wf_encodeCommit hs
  | ldpcm w v => exact wf_storeWord_pcm w v hs
  | portWrite r v => rw [r.set_frame]; exact hs
  | create | configure | destroy | raised | read | busErr => exact hs

/-- Settles O15, by the host's next action: the idle step leaves the memory, a reset empties it, and a request keeps its
form by `wf_of_effect`. -/
theorem memoryFormIsKept : Obligations.MemoryFormIsKept := by
  unfold Obligations.MemoryFormIsKept
  intro s t hs hstep
  match hinputs : s.inputs with
  | [] =>
    rw [step_idle hinputs] at hstep
    rwa [← Host.Outcome.next.inj hstep, idle_mem]
  | .reset cut :: rest =>
    rw [step_reset hinputs] at hstep
    rw [← Host.Outcome.next.inj hstep]
    rfl
  | .request r :: rest =>
    rw [step_request hinputs] at hstep
    exact wf_of_effect (s := takeInput s rest) hs (exec_effect hstep)

/-! ### LDPCM (R67) -/

theorem exec_ldpcm (w : BitVec 7) (v : Word) (s : State) :
    exec (.ldpcm w v) s = .next (answerWrite (storeWord s (pcmWordOffset w) v)) := rfl

theorem exec_rdPcmBuf (w : BitVec 7) (s : State) :
    exec (.rdPcmBuf w) s = .next (answer s (wordAt s (pcmWordOffset w))) := rfl

/-- A response changes no byte and so no word. -/
@[simp] theorem byteAt_answerWrite (s : State) (a : Nat) : byteAt (answerWrite s) a = byteAt s a := rfl

@[simp] theorem wordAt_answerWrite (s : State) (a : Nat) : wordAt (answerWrite s) a = wordAt s a := rfl

/-- Byte k of a stored word (R63). -/
theorem byteAt_storeWord_add (s : State) (a : Nat) (v : Word) {k : Nat} (hk : k < 4) :
    byteAt (storeWord s a v) (a + k) = (bytesOfWord v).getD k 0 := by
  rw [byteAt_storeWord, if_pos ⟨Nat.le_add_right a k, Nat.add_lt_add_left hk a⟩, Nat.add_sub_cancel_left]

/-- A store leaves every byte outside its word (R67). -/
theorem byteAt_storeWord_outside (s : State) {a b : Nat} (v : Word) (hb : b < a ∨ a + 4 ≤ b) :
    byteAt (storeWord s a v) b = byteAt s b := by
  rw [byteAt_storeWord, if_neg (by omega)]

/-- A store leaves every word that shares no byte with its own (R71). -/
theorem wordAt_storeWord_disjoint (s : State) {a b : Nat} (v : Word) (h : b + 4 ≤ a ∨ a + 4 ≤ b) :
    wordAt (storeWord s a v) b = wordAt s b := by
  have houtside : ∀ k < 4, byteAt (storeWord s a v) (b + k) = byteAt s (b + k) :=
    fun k _ => byteAt_storeWord_outside s v (by omega)
  simp only [wordAt, houtside 1 (by decide), houtside 2 (by decide), houtside 3 (by decide),
    show byteAt (storeWord s a v) b = byteAt s b from houtside 0 (by decide)]

/-- Two words of PCM_BUF share no byte (R62). -/
theorem pcmWordOffset_disjoint {w x : BitVec 7} (h : x ≠ w) :
    pcmWordOffset x + 4 ≤ pcmWordOffset w ∨ pcmWordOffset w + 4 ≤ pcmWordOffset x := by
  have hne : x.toNat ≠ w.toNat := mt BitVec.eq_of_toNat_eq h
  rw [pcmWordOffset, pcmWordOffset]
  omega

/-- Settles O23: the word's four bytes by `byteAt_storeWord_add`, the others by `byteAt_storeWord_outside`. -/
theorem ldpcmStoresOneWordLittleEndian : Obligations.LdpcmStoresOneWordLittleEndian := by
  unfold Obligations.LdpcmStoresOneWordLittleEndian
  intro s w v
  have hbyte : ∀ k < 4, pcmByte (answerWrite (storeWord s (pcmWordOffset w) v)) (4 * w.toNat + k) =
      (bytesOfWord v).getD k 0 := fun k hk => by
    rw [pcmByte, byteAt_answerWrite, ← Nat.add_assoc]
    exact byteAt_storeWord_add s (pcmWordOffset w) v hk
  exact ⟨_, exec_ldpcm w v s, rfl, hbyte 0 (by decide), hbyte 1 (by decide), hbyte 2 (by decide),
    hbyte 3 (by decide), rfl, fun a ha => byteAt_storeWord_outside s v ha⟩

/-- Settles O24: the word written by `wordAt_storeWord`, another word by `wordAt_storeWord_disjoint`. -/
theorem ldpcmThenReadAnswersTheWord : Obligations.LdpcmThenReadAnswersTheWord := by
  unfold Obligations.LdpcmThenReadAnswersTheWord
  intro s t w x v h
  rw [exec_ldpcm] at h
  obtain rfl := Host.Outcome.next.inj h
  constructor
  · rw [exec_rdPcmBuf, wordAt_answerWrite, wordAt_storeWord, answer]
  · intro hx d hd
    have hword : wordAt s (pcmWordOffset x) = d := by
      rw [exec_rdPcmBuf] at hd
      have hresponse := congrArg State.response (Host.Outcome.next.inj hd)
      simpa using hresponse
    rw [exec_rdPcmBuf, wordAt_answerWrite, wordAt_storeWord_disjoint s v (pcmWordOffset_disjoint hx), hword, answer]

/-! ### Reads (R66) -/

/-- A read's data does not depend on the last response, which is the only item a read changes. -/
theorem exec_read_of_any_response {i : Instr} (hi : isRead i = true) {s : State} {d : Word}
    (h : exec i s = .next (answer s d)) (r : Option Response) :
    exec i { s with response := r } = .next (answer s d) := by
  cases i <;> simp only [isRead, Bool.false_eq_true] at hi <;> exact h

/-- Settles O22: the read answers by `exec_read`, and again by `exec_read_of_any_response`. -/
theorem readsChangeNothing : Obligations.ReadsChangeNothing := by
  unfold Obligations.ReadsChangeNothing
  intro i s hi
  obtain ⟨d, hd⟩ := exec_read hi s
  exact ⟨d, hd, exec_read_of_any_response hi hd _⟩

/-- Settles O17: each read answers its register, and the two halves of BLOCK_COUNT (R35) join to the counter. -/
theorem registerReadsAnswerTheRegister : Obligations.RegisterReadsAnswerTheRegister := by
  unfold Obligations.RegisterReadsAnswerTheRegister
  intro s
  have hhalves : s.blockCount.extractLsb' 32 32 ++ s.blockCount.extractLsb' 0 32 = s.blockCount :=
    BitVec.extractLsb'_append_extractLsb'
  exact ⟨rfl, rfl, rfl, rfl, rfl, rfl, rfl, rfl, rfl, rfl, _, _, hhalves.symm, rfl, rfl⟩

/-- The word at offset o of a buffer is the buffer's four bytes from o on, the first lowest (R63). -/
theorem wordAt_add (s : State) (base o : Nat) :
    wordAt s (base + o) = byteAt s (base + (o + 3)) ++ (byteAt s (base + (o + 2)) ++
      (byteAt s (base + (o + 1)) ++ byteAt s (base + o))) := by
  simp only [wordAt, wordOfBytes, Nat.add_assoc]

/-- A word of PCM_BUF as its four bytes (R36). -/
theorem wordAt_pcmBase (s : State) (o : Nat) :
    wordAt s (pcmBase + o) = pcmByte s (o + 3) ++ (pcmByte s (o + 2) ++ (pcmByte s (o + 1) ++ pcmByte s o)) :=
  wordAt_add s pcmBase o

/-- A word of FRAME_BUF as its four bytes (R37). -/
theorem wordAt_frameBase (s : State) (o : Nat) :
    wordAt s (frameBase + o) =
      frameByte s (o + 3) ++ (frameByte s (o + 2) ++ (frameByte s (o + 1) ++ frameByte s o)) :=
  wordAt_add s frameBase o

theorem exec_rdfrm (w : BitVec 6) (s : State) :
    exec (.rdfrm w) s = .next (answer s (wordAt s (frameWordOffset w.toNat))) := rfl

theorem exec_rdfrmH1 (wLow : BitVec 4) (s : State) :
    exec (.rdfrmH1 wLow) s = .next (answer s (wordAt s (frameWordOffset (64 + wLow.toNat)))) := rfl

theorem exec_rdfrmH2 (wLow : BitVec 2) (s : State) :
    exec (.rdfrmH2 wLow) s = .next (answer s (wordAt s (frameWordOffset (80 + wLow.toNat)))) := rfl

/-- Settles O25: each read answers the word at its offset; RDFRM.H1 and RDFRM.H2 begin at words 64 and 80 of
FRAME_BUF, which are its bytes 256 and 320 (R94). -/
theorem bufferReadsAnswerFourBytes : Obligations.BufferReadsAnswerFourBytes := by
  unfold Obligations.BufferReadsAnswerFourBytes
  intro s w f g h
  refine ⟨?_, ?_, ?_, ?_⟩
  · rw [exec_rdPcmBuf, pcmWordOffset, wordAt_pcmBase, answer]
  · rw [exec_rdfrm, frameWordOffset, wordAt_frameBase, answer]
  · rw [exec_rdfrmH1, frameWordOffset, Nat.mul_add, wordAt_frameBase, answer]
  · rw [exec_rdfrmH2, frameWordOffset, Nat.mul_add, wordAt_frameBase, answer]

/-! ### Register writes and BUS.ERR (R67, R68) -/

/-- Settles O18: `exec_portRegister_write` at each of the seven registers. -/
theorem registerWritesStoreTheValue : Obligations.RegisterWritesStoreTheValue := by
  unfold Obligations.RegisterWritesStoreTheValue
  intro s v
  exact ⟨exec_portRegister_write .cfgMtu v s, exec_portRegister_write .cfgQuality v s,
    exec_portRegister_write .cfgChmode v s, exec_portRegister_write .cfgFormat v s,
    exec_portRegister_write .cfgSfreq v s, exec_portRegister_write .pcmLen v s,
    exec_portRegister_write .outCapacity v s⟩

/-- BUS.ERR gives the error response whatever request it stands for (R221). -/
theorem exec_busErr (we : Bool) (addr : Addr) (v : Word) (s : State) :
    exec (.busErr we addr v) s = .next (answerError s) := rfl

/-- Settles O26: the error response is `answerError`, which sets the response only. -/
theorem busErrAnswersErrorOnly : Obligations.BusErrAnswersErrorOnly := by
  unfold Obligations.BusErrAnswersErrorOnly
  intro s we addr v
  rw [exec_busErr, answerError]

end Sys2Proof.Machine
end

section
/-! PROOFS. Format T through encoder and decoder, both ways (R91, R94). -/

namespace Sys2Proof.Machine

/-! ### Encoding, then decoding (R91, R94) -/

/-- Settles O2: the round trip of each row of the table, from the family `Laws.RoundTrip`. -/
theorem decodeOfEncodeIsTheInstruction : Obligations.DecodeOfEncodeIsTheInstruction := by
  unfold Obligations.DecodeOfEncodeIsTheInstruction
  intro i
  cases i with
  | create => exact Laws.RoundTrip.create
  | configure => exact Laws.RoundTrip.configure
  | encode => exact Laws.RoundTrip.encode
  | destroy => exact Laws.RoundTrip.destroy
  | cmdIllegal word => exact Laws.RoundTrip.cmdIllegal word
  | rdStatus => exact Laws.RoundTrip.rdStatus
  | getErr => exact Laws.RoundTrip.getErr
  | wrCfgMtu value => exact Laws.RoundTrip.wrCfgMtu value
  | rdCfgMtu => exact Laws.RoundTrip.rdCfgMtu
  | wrCfgQuality value => exact Laws.RoundTrip.wrCfgQuality value
  | rdCfgQuality => exact Laws.RoundTrip.rdCfgQuality
  | wrCfgChmode value => exact Laws.RoundTrip.wrCfgChmode value
  | rdCfgChmode => exact Laws.RoundTrip.rdCfgChmode
  | wrCfgFormat value => exact Laws.RoundTrip.wrCfgFormat value
  | rdCfgFormat => exact Laws.RoundTrip.rdCfgFormat
  | wrCfgSfreq value => exact Laws.RoundTrip.wrCfgSfreq value
  | rdCfgSfreq => exact Laws.RoundTrip.rdCfgSfreq
  | wrPcmLen value => exact Laws.RoundTrip.wrPcmLen value
  | rdPcmLen => exact Laws.RoundTrip.rdPcmLen
  | wrOutCapacity value => exact Laws.RoundTrip.wrOutCapacity value
  | rdOutCapacity => exact Laws.RoundTrip.rdOutCapacity
  | getBr => exact Laws.RoundTrip.getBr
  | getSf => exact Laws.RoundTrip.getSf
  | rdBlockCountLo => exact Laws.RoundTrip.rdBlockCountLo
  | rdBlockCountHi => exact Laws.RoundTrip.rdBlockCountHi
  | rdConsumed => exact Laws.RoundTrip.rdConsumed
  | rdFrameLen => exact Laws.RoundTrip.rdFrameLen
  | rdFrameCount => exact Laws.RoundTrip.rdFrameCount
  | ldpcm w value => exact Laws.RoundTrip.ldpcm w value
  | rdPcmBuf w => exact Laws.RoundTrip.rdPcmBuf w
  | rdfrm w => exact Laws.RoundTrip.rdfrm w
  | rdfrmH1 wLow => exact Laws.RoundTrip.rdfrmH1 wLow
  | rdfrmH2 wLow => exact Laws.RoundTrip.rdfrmH2 wLow
  | busErr we addr wdata => exact Laws.RoundTrip.busErr we addr wdata

/-! ### The decoder's case splits -/

/-- What a request decodes to, by its kind: an unaligned request, an aligned write, an aligned read (R91). -/
theorem decodeRequest_cases {p : Request → Instr → Prop}
    (hunaligned : ∀ we addr v, addr.extractLsb' 0 2 ≠ 0#2 → p ⟨we, addr, v⟩ (.busErr we addr v))
    (hwrite : ∀ addr v, addr.extractLsb' 0 2 = 0#2 → p ⟨true, addr, v⟩ (decodeWrite addr v))
    (hread : ∀ addr v, addr.extractLsb' 0 2 = 0#2 → p ⟨false, addr, v⟩ (decodeRead addr v)) (r : Request) :
    p r (decodeRequest r) := by
  obtain ⟨we, addr, v⟩ := r
  by_cases haligned : addr.extractLsb' 0 2 = 0#2
  · cases we with
    | false =>
      rw [decodeRequest_read, if_neg (not_not.mpr haligned)]
      exact hread addr v haligned
    | true =>
      rw [decodeRequest_write, if_neg (not_not.mpr haligned)]
      exact hwrite addr v haligned
  · rw [decodeRequest, if_pos haligned]
    exact hunaligned we addr v haligned

/-- One row of the decoder: what holds of the row's instruction under its test, and of the later rows' without it,
holds of the decoding. -/
theorem row_cases {c c' : Prop} [Decidable c] {i j : Instr} (p : Instr → Prop) (htest : c ↔ c')
    (hthen : c' → p i) (helse : ¬ c' → p j) : p (if c then i else j) := by
  by_cases hc : c'
  · rw [if_pos (htest.mpr hc)]
    exact hthen hc
  · rw [if_neg (mt htest.mp hc)]
    exact helse hc

/-! ### The decoder gives well-formed instructions only (R94) -/

/-- R62's map of permitted requests is the complement of R68's list. -/
theorem permitted_eq_false_iff (we : Bool) (addr : Addr) :
    permitted we addr = false ↔ busErrorListed we addr.toNat := by
  have hlt : addr.toNat < 0x1000 := addr.isLt
  cases we <;> simp [permitted, busErrorListed] <;> omega

theorem wellFormed_busErr_iff (we : Bool) (addr : Addr) (v : Word) :
    WellFormed (.busErr we addr v) = true ↔ busErrorListed we addr.toNat := by
  rw [WellFormed, Bool.not_eq_true', permitted_eq_false_iff]

theorem wellFormed_decodeCommand (v : Word) : WellFormed (decodeCommand v) = true := by
  rw [decodeCommand]
  iterate 4 refine row_cases (WellFormed · = true) Iff.rfl (fun _ => rfl) fun _ => ?_
  simp [WellFormed, isCommandWord, *]

/-- An aligned write that no row before BUS.ERR takes is on R68's list. -/
theorem wellFormed_decodeWrite {addr : Addr} (haligned : addr.extractLsb' 0 2 = 0#2) (v : Word) :
    WellFormed (decodeWrite addr v) = true := by
  rw [aligned_iff] at haligned
  rw [decodeWrite]
  refine row_cases (WellFormed · = true) (addr_eq_ofNat_iff addr (by decide))
    (fun _ => wellFormed_decodeCommand v) fun _ => ?_
  iterate 7
    refine row_cases (WellFormed · = true) (addr_eq_ofNat_iff addr (by decide)) (fun _ => rfl) fun _ => ?_
  refine row_cases (WellFormed · = true) (pcm_window_iff addr) (fun _ => rfl) fun _ => ?_
  have hlt : addr.toNat < 0x1000 := addr.isLt
  simp only [wellFormed_busErr_iff, busErrorListed, Bool.true_eq_false, true_and, false_and, false_or]
  omega

/-- An aligned read that no row before BUS.ERR takes is on R68's list. -/
theorem wellFormed_decodeRead {addr : Addr} (haligned : addr.extractLsb' 0 2 = 0#2) (v : Word) :
    WellFormed (decodeRead addr v) = true := by
  rw [aligned_iff] at haligned
  rw [decodeRead]
  iterate 16
    refine row_cases (WellFormed · = true) (addr_eq_ofNat_iff addr (by decide)) (fun _ => rfl) fun _ => ?_
  refine row_cases (WellFormed · = true) (pcm_window_iff addr) (fun _ => rfl) fun _ => ?_
  refine row_cases (WellFormed · = true) (rdfrm_window_iff addr) (fun _ => rfl) fun _ => ?_
  refine row_cases (WellFormed · = true) (rdfrmH1_window_iff addr) (fun _ => rfl) fun _ => ?_
  refine row_cases (WellFormed · = true) (rdfrmH2_window_iff addr) (fun _ => rfl) fun _ => ?_
  have hlt : addr.toNat < 0x1000 := addr.isLt
  simp only [wellFormed_busErr_iff, busErrorListed, Bool.false_eq_true, true_and, false_and, false_or]
  omega

theorem wellFormed_decodeRequest (r : Request) : WellFormed (decodeRequest r) = true :=
  decodeRequest_cases (p := fun _ i => WellFormed i = true)
    (fun we addr v h => (wellFormed_busErr_iff we addr v).mpr (.inl (mt (aligned_iff addr).mpr h)))
    (fun _ v h => wellFormed_decodeWrite h v) (fun _ v h => wellFormed_decodeRead h v) r

/-! ### Decoding, then encoding (R91) -/

/-- An aligned offset is its window's high bits, its word number and two zero bits. -/
theorem append_word_of_aligned {high k : Nat} {addr : BitVec (high + k + 2)} {p : BitVec high}
    (haligned : addr.extractLsb' 0 2 = 0#2) (hwindow : addr.extractLsb' (k + 2) high = p) :
    p ++ addr.extractLsb' 2 k ++ 0b00#2 = addr := by
  rw [← hwindow, ← haligned]
  apply BitVec.eq_of_getLsbD_eq
  intro j hj
  simp only [BitVec.getLsbD_append, BitVec.getLsbD_extractLsb']
  grind

theorem encodeRequest_decodeCommand (v : Word) : encodeRequest (decodeCommand v) = ⟨true, 0#12, v⟩ := by
  rw [decodeCommand]
  iterate 4 refine row_cases (encodeRequest · = _) Iff.rfl (by rintro rfl; rfl) fun _ => ?_
  rfl

theorem encodeRequest_decodeWrite {addr : Addr} (haligned : addr.extractLsb' 0 2 = 0#2) (v : Word) :
    encodeRequest (decodeWrite addr v) = ⟨true, addr, v⟩ := by
  rw [decodeWrite]
  refine row_cases (encodeRequest · = _) Iff.rfl (by rintro rfl; exact encodeRequest_decodeCommand v) fun _ => ?_
  iterate 7 refine row_cases (encodeRequest · = _) Iff.rfl (by rintro rfl; rfl) fun _ => ?_
  refine row_cases (encodeRequest · = _) Iff.rfl (fun hwindow => ?_) fun _ => rfl
  exact congrArg (writeRequest · v) (append_word_of_aligned haligned hwindow)

theorem encodeRequest_decodeRead {addr : Addr} (haligned : addr.extractLsb' 0 2 = 0#2) :
    encodeRequest (decodeRead addr 0#32) = ⟨false, addr, 0#32⟩ := by
  rw [decodeRead]
  iterate 16 refine row_cases (encodeRequest · = _) Iff.rfl (by rintro rfl; rfl) fun _ => ?_
  iterate 4
    refine row_cases (encodeRequest · = _) Iff.rfl
      (fun hwindow => congrArg readRequest (append_word_of_aligned haligned hwindow)) fun _ => ?_
  rfl

/-- No bit of a write is lost, nor of a read with the `wdata` 0 that the assembler emits (R91). -/
theorem encodeRequest_decodeRequest (r : Request) :
    r.we = true ∨ r.wdata = 0#32 → encodeRequest (decodeRequest r) = r := by
  refine decodeRequest_cases (p := fun r i => r.we = true ∨ r.wdata = 0#32 → encodeRequest i = r)
    (fun _ _ _ _ _ => rfl) (fun _ v haligned _ => encodeRequest_decodeWrite haligned v)
    (fun addr v haligned h => ?_) r
  obtain rfl : v = 0#32 := h.resolve_left Bool.false_ne_true
  exact encodeRequest_decodeRead haligned

/-- Settles O4: well-formed by `wellFormed_decodeRequest`, nothing lost by `encodeRequest_decodeRequest`. -/
theorem decodedTransactionReencodes : Obligations.DecodedTransactionReencodes := by
  unfold Obligations.DecodedTransactionReencodes
  intro t
  refine ⟨wellFormed_decodeRequest (unpackRequest t), fun h => ?_⟩
  rw [encode, decode, encodeRequest_decodeRequest _ h, pack_unpack]

end Sys2Proof.Machine
end

section
/-! PROOFS. The decoder beside the opcode table: its tests, in its order, are the rows in theirs (R94). -/

namespace Sys2Proof.Machine

/-! ### When a request fits a row of the opcode table (R94) -/

theorem unpackRequest_injective : Function.Injective unpackRequest :=
  Function.LeftInverse.injective pack_unpack

theorem packRequest_injective : Function.Injective packRequest :=
  Function.LeftInverse.injective unpack_pack

/-- A request fits a row where each of its signals, under the row's mask, is the row's. -/
theorem fits_packRequest_iff (row : OpcodeRow) (r : Request) :
    row.fits (packRequest r) = true ↔
      (r.we && (unpackRequest row.mask).we) = (unpackRequest row.pattern).we ∧
      r.addr &&& (unpackRequest row.mask).addr = (unpackRequest row.pattern).addr ∧
      r.wdata &&& (unpackRequest row.mask).wdata = (unpackRequest row.pattern).wdata := by
  have hand : unpackRequest (packRequest r &&& row.mask) =
      ⟨r.we && (unpackRequest row.mask).we, r.addr &&& (unpackRequest row.mask).addr,
        r.wdata &&& (unpackRequest row.mask).wdata⟩ := by
    conv_rhs => rw [← unpack_pack r]
    simp only [unpackRequest, BitVec.getLsbD_and, BitVec.extractLsb'_and]
  rw [OpcodeRow.fits, beq_iff_eq, ← unpackRequest_injective.eq_iff, hand, Request.mk.injEq]

/-- A command's row takes its one word, all 45 bits compared (R92). -/
theorem fits_command_iff {row : OpcodeRow} {w : Word} (hmask : row.mask = BitVec.allOnes 45)
    (hpattern : row.pattern = packRequest ⟨true, 0#12, w⟩) (v : Word) :
    row.fits (packRequest ⟨true, 0#12, v⟩) = true ↔ v = w := by
  rw [OpcodeRow.fits, beq_iff_eq, hmask, hpattern, BitVec.and_allOnes, packRequest_injective.eq_iff]
  simp

/-- A row whose mask leaves `wdata` out takes requests of its own kind by their offset. -/
theorem fits_masked_iff {row : OpcodeRow} {we : Bool} {m a : Addr} (hmask : row.mask = packRequest ⟨true, m, 0#32⟩)
    (hpattern : row.pattern = packRequest ⟨we, a, 0#32⟩) (addr : Addr) (v : Word) :
    row.fits (packRequest ⟨we, addr, v⟩) = true ↔ addr &&& m = a := by
  rw [fits_packRequest_iff, hmask, hpattern, unpack_pack, unpack_pack]
  simp

/-- A register's row takes one offset. -/
theorem fits_offset_iff {row : OpcodeRow} {we : Bool} {a : Addr}
    (hmask : row.mask = packRequest ⟨true, BitVec.allOnes 12, 0#32⟩)
    (hpattern : row.pattern = packRequest ⟨we, a, 0#32⟩) (addr : Addr) (v : Word) :
    row.fits (packRequest ⟨we, addr, v⟩) = true ↔ addr = a := by
  rw [fits_masked_iff hmask hpattern, BitVec.and_allOnes]

/-- A window's row takes the aligned offsets with the window's high bits, whatever the word number below them (R94). -/
theorem and_windowMask_eq_iff {high k : Nat} {addr : BitVec (high + k + 2)} {p : BitVec high}
    (haligned : addr.extractLsb' 0 2 = 0#2) :
    addr &&& (BitVec.allOnes high ++ 0#k ++ 0b11#2) = p ++ 0#k ++ 0b00#2 ↔ addr.extractLsb' (k + 2) high = p := by
  have hand : addr &&& (BitVec.allOnes high ++ 0#k ++ 0b11#2) = addr.extractLsb' (k + 2) high ++ 0#k ++ 0b00#2 := by
    conv_lhs => rw [← append_word_of_aligned haligned rfl]
    rw [BitVec.and_append, BitVec.and_append, BitVec.and_allOnes, BitVec.and_zero, BitVec.zero_and]
  rw [hand, BitVec.append_left_inj, BitVec.append_left_inj]

/-- A row for writes takes no read, and a row for reads no write. -/
theorem not_fits_of_we {row : OpcodeRow} {we : Bool} (hmask : (unpackRequest row.mask).we = true)
    (hpattern : (unpackRequest row.pattern).we ≠ we) (addr : Addr) (v : Word) :
    ¬ row.fits (packRequest ⟨we, addr, v⟩) = true := by
  rw [fits_packRequest_iff, hmask, Bool.and_true]
  rintro ⟨hwe, -⟩
  exact hpattern hwe.symm

/-- A row for CMD takes no other offset. -/
theorem not_fits_of_addr {row : OpcodeRow} {r : Request} (hmask : (unpackRequest row.mask).addr = BitVec.allOnes 12)
    (hpattern : (unpackRequest row.pattern).addr ≠ r.addr) : ¬ row.fits (packRequest r) = true := by
  rw [fits_packRequest_iff, hmask, BitVec.and_allOnes]
  rintro ⟨-, haddr, -⟩
  exact hpattern haddr.symm

/-- A row for an aligned offset or window takes no unaligned request (R64). -/
theorem not_fits_of_unaligned {row : OpcodeRow} {r : Request}
    (hmask : (unpackRequest row.mask).addr.extractLsb' 0 2 = BitVec.allOnes 2)
    (hpattern : (unpackRequest row.pattern).addr.extractLsb' 0 2 = 0#2) (hr : r.addr.extractLsb' 0 2 ≠ 0#2) :
    ¬ row.fits (packRequest r) = true := by
  rw [fits_packRequest_iff]
  rintro ⟨-, haddr, -⟩
  rw [← haddr, BitVec.extractLsb'_and, hmask, BitVec.and_allOnes] at hpattern
  exact hr hpattern

/-! ### The first fitting row -/

/-- The mnemonic of the first of these rows that a transaction fits. -/
def firstFit (rows : List OpcodeRow) (t : BitVec 45) : Option String :=
  (rows.find? fun row => row.fits t).map OpcodeRow.mnemonic

theorem tableMnemonic_eq_firstFit (t : BitVec 45) : tableMnemonic t = firstFit opcodeTable t := rfl

theorem firstFit_of_fits {row : OpcodeRow} {t : BitVec 45} (h : row.fits t = true) (rows : List OpcodeRow) :
    firstFit (row :: rows) t = some row.mnemonic := by
  simp [firstFit, h]

theorem firstFit_of_not_fits {row : OpcodeRow} {t : BitVec 45} (h : ¬ row.fits t = true) (rows : List OpcodeRow) :
    firstFit (row :: rows) t = firstFit rows t := by
  simp [firstFit, h]

/-- One row of the table beside one test of the decoder: where they say the same and name the same instruction, and the
later rows agree, the whole agrees. -/
theorem firstFit_ite {row : OpcodeRow} {rows : List OpcodeRow} {t : BitVec 45} {c : Prop} [Decidable c] {i j : Instr}
    (htest : row.fits t = true ↔ c) (hthen : row.mnemonic = mnemonicOf i)
    (helse : ¬ c → firstFit rows t = some (mnemonicOf j)) :
    firstFit (row :: rows) t = some (mnemonicOf (if c then i else j)) := by
  by_cases hc : c
  · rw [if_pos hc, firstFit_of_fits (htest.mpr hc), hthen]
  · rw [if_neg hc, firstFit_of_not_fits (mt htest.mp hc), helse hc]

/-- The last row takes every transaction. -/
theorem firstFit_busErr (we : Bool) (addr : Addr) (v : Word) (t : BitVec 45) :
    firstFit [⟨"BUS.ERR", 0x000000000000#45, 0x000000000000#45⟩] t = some (mnemonicOf (.busErr we addr v)) :=
  firstFit_of_fits (by rw [OpcodeRow.fits, beq_iff_eq]; exact BitVec.and_zero) []

/-! ### The table beside the decoder -/

/-- An unaligned request passes over every row but the last. -/
theorem firstFit_unaligned (we : Bool) {addr : Addr} (v : Word) (hunaligned : addr.extractLsb' 0 2 ≠ 0#2) :
    firstFit opcodeTable (packRequest ⟨we, addr, v⟩) = some (mnemonicOf (.busErr we addr v)) := by
  rw [opcodeTable]
  iterate 33 rw [firstFit_of_not_fits (not_fits_of_unaligned (by decide) (by decide) hunaligned)]
  exact firstFit_busErr we addr v _

/-- A write to CMD: the four commands' rows and CMD.ILLEGAL, which takes every other word. -/
theorem firstFit_cmd (v : Word) :
    firstFit opcodeTable (packRequest ⟨true, 0#12, v⟩) = some (mnemonicOf (decodeCommand v)) := by
  rw [opcodeTable, decodeCommand]
  iterate 4 refine firstFit_ite (fits_command_iff (by decide) (by decide) v) rfl fun _ => ?_
  exact firstFit_of_fits ((fits_offset_iff (by decide) (by decide) _ v).mpr rfl) _

/-- The rows that an aligned write elsewhere passes over are those of CMD and of reads. -/
theorem firstFit_write {addr : Addr} (v : Word) (haligned : addr.extractLsb' 0 2 = 0#2) :
    firstFit opcodeTable (packRequest ⟨true, addr, v⟩) = some (mnemonicOf (decodeWrite addr v)) := by
  by_cases hcmd : addr = 0#12
  · subst hcmd
    exact firstFit_cmd v
  rw [opcodeTable, decodeWrite, if_neg hcmd]
  iterate 5 rw [firstFit_of_not_fits (not_fits_of_addr (by decide) (Ne.symm hcmd))]
  rw [firstFit_of_not_fits (not_fits_of_we (by decide) (by decide) addr v)]
  iterate 7
    rw [firstFit_of_not_fits (not_fits_of_we (by decide) (by decide) addr v)]
    refine firstFit_ite (fits_offset_iff (by decide) (by decide) addr v) rfl fun _ => ?_
  iterate 8 rw [firstFit_of_not_fits (not_fits_of_we (by decide) (by decide) addr v)]
  refine firstFit_ite ((fits_masked_iff (by decide) (by decide) addr v).trans
    (and_windowMask_eq_iff (high := 3) (k := 7) haligned)) rfl fun _ => ?_
  iterate 4 rw [firstFit_of_not_fits (not_fits_of_we (by decide) (by decide) addr v)]
  exact firstFit_busErr true addr v _

/-- The rows that an aligned read passes over are those of writes. -/
theorem firstFit_read {addr : Addr} (v : Word) (haligned : addr.extractLsb' 0 2 = 0#2) :
    firstFit opcodeTable (packRequest ⟨false, addr, v⟩) = some (mnemonicOf (decodeRead addr v)) := by
  rw [opcodeTable, decodeRead]
  iterate 5 rw [firstFit_of_not_fits (not_fits_of_we (by decide) (by decide) addr v)]
  iterate 2 refine firstFit_ite (fits_offset_iff (by decide) (by decide) addr v) rfl fun _ => ?_
  iterate 7
    rw [firstFit_of_not_fits (not_fits_of_we (by decide) (by decide) addr v)]
    refine firstFit_ite (fits_offset_iff (by decide) (by decide) addr v) rfl fun _ => ?_
  iterate 7 refine firstFit_ite (fits_offset_iff (by decide) (by decide) addr v) rfl fun _ => ?_
  rw [firstFit_of_not_fits (not_fits_of_we (by decide) (by decide) addr v)]
  refine firstFit_ite ((fits_masked_iff (by decide) (by decide) addr v).trans
    (and_windowMask_eq_iff (high := 3) (k := 7) haligned)) rfl fun _ => ?_
  refine firstFit_ite ((fits_masked_iff (by decide) (by decide) addr v).trans
    (and_windowMask_eq_iff (high := 4) (k := 6) haligned)) rfl fun _ => ?_
  refine firstFit_ite ((fits_masked_iff (by decide) (by decide) addr v).trans
    (and_windowMask_eq_iff (high := 6) (k := 4) haligned)) rfl fun _ => ?_
  refine firstFit_ite ((fits_masked_iff (by decide) (by decide) addr v).trans
    (and_windowMask_eq_iff (high := 8) (k := 2) haligned)) rfl fun _ => ?_
  exact firstFit_busErr false addr v _

/-- The first row of the table that a request fits names what the request decodes to. -/
theorem firstFit_packRequest (r : Request) :
    firstFit opcodeTable (packRequest r) = some (mnemonicOf (decodeRequest r)) :=
  decodeRequest_cases (p := fun r i => firstFit opcodeTable (packRequest r) = some (mnemonicOf i))
    (fun we _ v h => firstFit_unaligned we v h) (fun _ v h => firstFit_write v h) (fun _ v h => firstFit_read v h) r

/-- Settles O3: `firstFit_packRequest` at the transaction's signals. -/
theorem decodeNamesTheFirstTableRow : Obligations.DecodeNamesTheFirstTableRow := by
  unfold Obligations.DecodeNamesTheFirstTableRow
  intro t
  rw [decode, ← firstFit_packRequest, pack_unpack, tableMnemonic_eq_firstFit]

end Sys2Proof.Machine
end

section
/-! PROOFS. The words written to CMD, and the words the spec writes out (R92, R93). -/

namespace Sys2Proof.Machine

/-! ### The words of CMD (R92, R93) -/

/-- A word that is none of the four commands' is CMD.ILLEGAL. -/
theorem decodeCommand_illegal {v : Word} (h1 : v ≠ 1#32) (h2 : v ≠ 2#32) (h3 : v ≠ 3#32) (h4 : v ≠ 4#32) :
    decodeCommand v = .cmdIllegal v := by
  rw [decodeCommand, if_neg h1, if_neg h2, if_neg h3, if_neg h4]

/-- Only the word 1 is CREATE: all 32 bits are compared. -/
theorem decodeCommand_ne_create {v : Word} (h : v ≠ 1#32) : decodeCommand v ≠ .create := by
  rw [decodeCommand, if_neg h]
  split_ifs <;> exact nofun

/-- CMD.ILLEGAL in a live state (R126). -/
theorem exec_cmdIllegal_live {s : State} (hlive : s.live) (v : Word) :
    exec (.cmdIllegal v) s = .next (raiseError s .illegalParameter) := by
  have hexec : exec (.cmdIllegal v) s = .next (inLiveState s fun t => raiseError t .illegalParameter) := rfl
  rw [hexec, inLiveState_live _ ((not_isDead_iff_live s).mpr hlive)]

/-- Settles O8: a write to CMD runs `decodeCommand` of its word; `exec_command_dead` is the dead-state test, which
every word but CREATE's meets. -/
theorem commandWordsAreTestedInOrder : Obligations.CommandWordsAreTestedInOrder := by
  unfold Obligations.CommandWordsAreTestedInOrder
  intro s v
  rw [decodeRequest_cmd]
  refine ⟨?create, ?dead, ?configure, ?encode, ?destroy, ?illegal⟩
  case create => rintro rfl; rfl
  case dead =>
    intro hcreate hdead
    rw [exec_command_dead hdead (isCommand_decodeCommand v) (decodeCommand_ne_create hcreate)]
    rfl
  case configure => rintro - rfl; rfl
  case encode => rintro - rfl; rfl
  case destroy => rintro - rfl; rfl
  case illegal =>
    intro hlive h1 h2 h3 h4
    rw [decodeCommand_illegal h1 h2 h3 h4, exec_cmdIllegal_live (live_of_not_dead hlive)]
    rfl

/-! ### Words the spec writes out -/

/-- Settles O1: each word's signals, run through the decoder. -/
theorem specWordsDecodeAsWritten : Obligations.SpecWordsDecodeAsWritten := by
  unfold Obligations.SpecWordsDecodeAsWritten
  exact ⟨rfl, rfl, rfl, rfl, rfl, rfl, rfl, rfl, rfl⟩

end Sys2Proof.Machine
end

section
/-! PROOFS. The session: what each command does to it, the queries of its flags, and the state machine of
40_session.md. -/

namespace Sys2Proof.Machine

/-! ### The two ways a command ends, as whole states (R24, R224) -/

theorem raiseError_eq (s : State) (code : ErrorCode) :
    raiseError s code = { s with lastError := code, response := some ⟨0#32, false⟩ } := rfl

theorem commandDone_eq (s : State) :
    commandDone s = { s with lastError := .none, response := some ⟨0#32, false⟩ } := rfl

/-! ### The commands of a live session (R110, R113, R120, R141) -/

theorem exec_create (s : State) :
    exec .create s = .next (commandDone { sessionDefaults s with session := .uninitialized }) := rfl

theorem exec_configure_legal {s : State} (h : s.session = .uninitialized ∧ s.stagingLegal) :
    exec .configure s = .next (commandDone (configureCommit s)) := by
  have hlive : s.live := .inl h.left
  obtain ⟨hcommits, -⟩ := execConfigure_live hlive
  exact hcommits h

theorem exec_configure_refused {s : State} (hlive : s.live) (h : ¬ (s.session = .uninitialized ∧ s.stagingLegal)) :
    exec .configure s = .next (raiseError s .illegalParameter) := by
  obtain ⟨-, hrefuses⟩ := execConfigure_live hlive
  exact hrefuses h

theorem exec_destroy_live {s : State} (hlive : s.live) :
    exec .destroy s = .next (commandDone { sessionDefaults s with session := .destroyed }) := by
  have hexec : exec .destroy s =
      .next (inLiveState s fun t => commandDone { sessionDefaults t with session := .destroyed }) := rfl
  rw [hexec, inLiveState_live _ ((not_isDead_iff_live s).mpr hlive)]

theorem exec_encode_admitted {s : State} (h : s.admitsEncode) :
    exec .encode s = .next (commandDone (encodeCommit lep10 s)) :=
  execEncode_admitted h

theorem exec_encode_refused {s : State} (hlive : s.live) (h : ¬ s.admitsEncode) :
    exec .encode s = .next (raiseError s .illegalParameter) :=
  execEncode_refused ((not_isDead_iff_live s).mpr hlive) h

/-! ### The state machine (R128, R129) -/

/-- STATE and LAST_ERROR are written by commands only. -/
theorem exec_not_command_flags {i : Instr} {s t : State} (hi : isCommand i = false) (h : exec i s = .next t) :
    t.session = s.session ∧ t.lastError = s.lastError := by
  cases exec_effect h with
  | create | configure | encode | destroy => exact absurd hi.symm Bool.false_ne_true
  | raised hcommand => exact absurd (hi.symm.trans hcommand) Bool.false_ne_true
  | portWrite r v => rw [r.set_frame]; exact ⟨rfl, rfl⟩
  | read | ldpcm | busErr => exact ⟨rfl, rfl⟩

/-- Settles O34: each cell is read off its command's rule; CONFIGURE and ENCODE split on their checks. -/
theorem sessionStateMachineTable : Obligations.SessionStateMachineTable := by
  unfold Obligations.SessionStateMachineTable
  intro s
  refine ⟨⟨_, exec_create s, rfl, rfl⟩, fun hdead i hi hcreate => ?dead, fun hlive => ⟨?destroy, fun v => ?illegal,
    ?configure, ?encode⟩, fun i t => exec_not_command_flags⟩
  case dead => exact ⟨_, exec_command_dead hdead hi hcreate, rfl, rfl⟩
  case destroy => exact ⟨_, exec_destroy_live hlive, rfl, rfl⟩
  case illegal => exact ⟨_, exec_cmdIllegal_live hlive v, rfl, rfl⟩
  case configure =>
    by_cases h : s.session = .uninitialized ∧ s.stagingLegal
    · exact ⟨_, exec_configure_legal h, fun _ => ⟨rfl, rfl⟩, fun hn => absurd h hn⟩
    · exact ⟨_, exec_configure_refused hlive h, fun hy => absurd hy h, fun _ => ⟨rfl, rfl⟩⟩
  case encode =>
    by_cases h : s.admitsEncode
    · exact ⟨_, exec_encode_admitted h, fun _ => ⟨rfl, rfl⟩, fun hn => absurd h hn⟩
    · exact ⟨_, exec_encode_refused hlive h, fun hy => absurd hy h, fun _ => ⟨rfl, rfl⟩⟩

/-- Settles O35: a command ends in one of two ways, and the successful one leaves LAST_ERROR None. -/
theorem failedCommandChangesOnlyLastError : Obligations.FailedCommandChangesOnlyLastError := by
  unfold Obligations.FailedCommandChangesOnlyLastError
  intro i s t hi h hne
  rcases exec_command_cases hi s with ⟨code, -, hraised⟩ | ⟨u, hdone⟩
  · obtain rfl := Host.Outcome.next.inj (hraised.symm.trans h)
    rw [raiseError_lastError, raiseError_eq]
  · obtain rfl := Host.Outcome.next.inj (hdone.symm.trans h)
    exact absurd (commandDone_lastError u) hne

/-! ### The queries (R122, R123, R124) -/

theorem decodeRequest_rdStatus (v : Word) : decodeRequest ⟨false, 0x004#12, v⟩ = .rdStatus := by
  simp [decodeRequest_read, decodeRead]

theorem decodeRequest_getErr (v : Word) : decodeRequest ⟨false, 0x008#12, v⟩ = .getErr := by
  simp [decodeRequest_read, decodeRead]

theorem decodeRequest_getSf (v : Word) : decodeRequest ⟨false, 0x02C#12, v⟩ = .getSf := by
  simp [decodeRequest_read, decodeRead]

theorem exec_rdStatus (s : State) : exec .rdStatus s = .next (answer s (statusWord s)) := rfl

theorem exec_getErr (s : State) : exec .getErr s = .next (answer s (lastErrorWord s)) := rfl

theorem exec_getSf (s : State) : exec .getSf s = .next (answer s (sfreqWord s)) := rfl

theorem statusWord_of_session {s : State} {q : SessionState} (h : s.session = q) :
    statusWord s = (sessionCode q).setWidth 32 := by
  rw [statusWord, h]

theorem lastErrorWord_of_lastError {s : State} {e : ErrorCode} (h : s.lastError = e) :
    lastErrorWord s = (errorCode e).setWidth 32 := by
  rw [lastErrorWord, h]

theorem isConfigured_iff (q : SessionState) : isConfigured q = true ↔ q = .ready ∨ q = .encoding := by
  cases q <;> decide

/-- Settles O16: the two reads answer the words of the flags, whose numbers `sessionCode` and `errorCode` list. -/
theorem statusAndErrorReads : Obligations.StatusAndErrorReads := by
  unfold Obligations.StatusAndErrorReads
  refine ⟨fun v => ⟨decodeRequest_rdStatus v, decodeRequest_getErr v⟩, fun s => ?_⟩
  exact ⟨_, _, exec_rdStatus s, statusWord_of_session, statusWord_of_session, statusWord_of_session,
    statusWord_of_session, statusWord_of_session, exec_getErr s, lastErrorWord_of_lastError,
    lastErrorWord_of_lastError, lastErrorWord_of_lastError, lastErrorWord_of_lastError, lastErrorWord_of_lastError⟩

/-- Settles O20: the gate of `sfreqWord` is open exactly in Ready and Encoding. -/
theorem samplingFrequencyQuery : Obligations.SamplingFrequencyQuery := by
  unfold Obligations.SamplingFrequencyQuery
  refine ⟨decodeRequest_getSf, fun s => ⟨_, exec_getSf s, fun hconfigured => ?_, fun hready hencoding => ?_⟩⟩
  · rw [sfreqWord, if_pos ((isConfigured_iff _).mpr hconfigured)]
  · have hclosed : ¬ isConfigured s.session = true := by
      rw [isConfigured_iff]
      exact not_or.mpr ⟨hready, hencoding⟩
    rw [sfreqWord, if_neg hclosed]
    rfl

/-! ### Each command's whole next state (R110, R113 to R116, R120, R125, R126) -/

/-- Settles O28: SessionDefaults(), STATE and the end of a successful command, written out. -/
theorem createBeginsANewSession : Obligations.CreateBeginsANewSession := by
  unfold Obligations.CreateBeginsANewSession
  refine ⟨rfl, fun s => ?_⟩
  rw [exec_create, sessionDefaults, silence, commandDone_eq]

/-- Settles O30: the dead-state gate comes before every command but CREATE. -/
theorem deadStateCommandsRaiseFatal : Obligations.DeadStateCommandsRaiseFatal := by
  unfold Obligations.DeadStateCommandsRaiseFatal
  intro s i hdead hi hcreate
  rw [exec_command_dead hdead hi hcreate, raiseError_eq]

/-- Settles O29: a live session by `exec_destroy_live`, a dead one as every command but CREATE. -/
theorem destroyReleasesALiveSession : Obligations.DestroyReleasesALiveSession := by
  unfold Obligations.DestroyReleasesALiveSession
  refine ⟨rfl, fun s => ⟨fun hlive => ?live, fun hdead => ?dead⟩⟩
  case live => rw [exec_destroy_live hlive, sessionDefaults, silence, commandDone_eq]
  case dead => exact deadStateCommandsRaiseFatal s .destroy hdead rfl nofun

/-- Settles O31: the word by `decodeCommand_illegal`, its effect by `exec_cmdIllegal_live`. -/
theorem illegalCommandWordInALiveState : Obligations.IllegalCommandWordInALiveState := by
  unfold Obligations.IllegalCommandWordInALiveState
  refine fun v => ⟨fun h1 h2 h3 h4 => ?word, fun s hlive => ?effect⟩
  case word => rw [decodeRequest_cmd, decodeCommand_illegal h1 h2 h3 h4]
  case effect => rw [exec_cmdIllegal_live hlive, raiseError_eq]

/-- Settles O32: the writes of `configureCommit` and the end of a successful command, written out. -/
theorem configureStoresTheConfiguration : Obligations.ConfigureStoresTheConfiguration := by
  unfold Obligations.ConfigureStoresTheConfiguration
  intro s hsession hlegal
  rw [exec_configure_legal ⟨hsession, hlegal⟩, configureCommit, silence, commandDone_eq]

/-- Settles O33: what is not both Uninitialized and legally staged is refused. -/
theorem configureRefusesEverythingElse : Obligations.ConfigureRefusesEverythingElse := by
  unfold Obligations.ConfigureRefusesEverythingElse
  intro s hlive h
  rw [exec_configure_refused hlive (not_and_or.mpr h), raiseError_eq]

end Sys2Proof.Machine
end

section
/-! PROOFS. What an ENCODE reads: the analysis window of a channel, and that frame and retained overlap are functions
of the configuration, the overlap and the block (R75, R145 to R149, R153, R175, R177). -/

namespace Sys2Proof.Machine

/-! ### The analysis window (R145) -/

/-- The first half of the window is the retained tail. -/
theorem analysisInput_tail (s : State) (n c : Nat) {j : Nat} (hj : j < 128) :
    analysisInput lep10 s n c j = (overlap s c)[j] := by
  rw [analysisInput, dif_pos hj]

/-- The second half of the window is the block, converted. -/
theorem analysisInput_block (s : State) (n c j : Nat) :
    analysisInput lep10 s n c (128 + j) = f32OfSample (pcmSample s n c j) := by
  rw [analysisInput, dif_neg (by omega), Nat.add_sub_cancel_left, newSample, lep10_ofSample]

/-- Every index of the window is in one of its halves. -/
theorem window_cases {m : Nat} (hm : m < 256) : m < 128 ∨ ∃ j, j < 128 ∧ m = 128 + j := by
  by_cases h : m < 128
  · exact .inl h
  · exact .inr ⟨m - 128, by omega, by omega⟩

/-- What ENCODE retains of a channel is its block, converted. -/
theorem newOverlap_getElem (s : State) (n c : Nat) {j : Nat} (hj : j < 128) :
    (newOverlap lep10 s n c)[j] = f32OfSample (pcmSample s n c j) := by
  rw [newOverlap, Vector.getElem_ofFn, newSample, lep10_ofSample]

/-! ### The block (R75) -/

/-- The samples of the active channels lie in the bytes that ENCODE consumes. -/
theorem sample_offset_lt {n c j : Nat} (hc : c < n) (hj : j < 128) : 2 * (j * n + c) + 1 < 256 * n := by
  have hrow : (j + 1) * n ≤ 128 * n := Nat.mul_le_mul_right n hj
  rw [Nat.succ_mul] at hrow
  omega

theorem nch_of_mono {m : Word} (h : m = 2) : nch lep10 m = 1 := by
  rw [nch_lep10]
  exact if_pos h

theorem nch_of_not_mono {m : Word} (h : m ≠ 2) : nch lep10 m = 2 := by
  rw [nch_lep10]
  exact if_neg h

/-- ENCODE consumes no byte outside PCM_BUF. -/
theorem consumed_le_pcmSize (m : Word) : 256 * nch lep10 m ≤ pcmSize := by
  rcases nch_cases m with h | h <;> rw [h] <;> decide

theorem pcmSample_congr {s t : State} {n c j : Nat} (h : ∀ o, o < 256 * n → pcmByte s o = pcmByte t o) (hc : c < n)
    (hj : j < 128) : pcmSample s n c j = pcmSample t n c j := by
  have hlast := sample_offset_lt hc hj
  rw [pcmSample, pcmSample, h _ hlast, h _ (by omega)]

theorem pcmSample_of_blockSilent {s : State} (h : s.blockSilent) {c j : Nat} (hc : c < nch lep10 s.actChmode)
    (hj : j < 128) : pcmSample s (nch lep10 s.actChmode) c j = 0#16 := by
  have hlast := sample_offset_lt hc hj
  rw [pcmSample, h _ hlast, h _ (by omega)]
  rfl

/-- F32 of the zero sample is +0.0 (R147). -/
theorem f32OfSample_zero : f32OfSample 0#16 = 0#32 := by decide

/-! ### Frame and overlap as functions of what R153 names -/

/-- Channel c has the same window, so the same coefficients (R176). -/
theorem coefficient_congr {s t : State} {n c : Nat} (hoverlap : overlap s c = overlap t c)
    (hblock : ∀ j, j < 128 → pcmSample s n c j = pcmSample t n c j) (k : Nat) :
    coefficient lep10 s n c k = coefficient lep10 t n c k := by
  rw [coefficient_lep10, coefficient_lep10]
  refine transform_congr (fun m hm => ?_) k
  rcases window_cases hm with htail | ⟨j, hj, rfl⟩
  · rw [analysisInput_tail s n c htail, analysisInput_tail t n c htail, hoverlap]
  · rw [analysisInput_block, analysisInput_block, hblock j hj]

theorem newOverlap_congr {s t : State} {n c : Nat} (h : ∀ j, j < 128 → pcmSample s n c j = pcmSample t n c j) :
    newOverlap lep10 s n c = newOverlap lep10 t n c :=
  Vector.ext fun j hj => by rw [newOverlap_getElem s n c hj, newOverlap_getElem t n c hj, h j hj]

/-- Payload bytes read coefficients of the active channels only (R203). -/
theorem payloadByte_congr {x y : Nat → Nat → F32} {n : Nat} (h : ∀ c, c < n → ∀ k, x c k = y c k) (i : Nat) :
    payloadByte lep10 x n i = payloadByte lep10 y n i := by
  by_cases hi : i < 128 * n
  · have hn : 0 < n := by omega
    rw [payloadByte, payloadByte, if_pos hi, if_pos hi, h _ (Nat.mod_lt i hn)]
  · rw [payloadByte, payloadByte, if_neg hi, if_neg hi]

/-- Two states agree on everything that R153 lets a frame depend on: configuration, and the tails and blocks of the
active channels. -/
structure EncodesAlike (s t : State) : Prop where
  quality : s.actQuality = t.actQuality
  chmode : s.actChmode = t.actChmode
  sfreq : s.actSfreq = t.actSfreq
  tails : ∀ c, c < nch lep10 s.actChmode → overlap s c = overlap t c
  blocks : ∀ c, c < nch lep10 s.actChmode → ∀ j, j < 128 →
    pcmSample s (nch lep10 s.actChmode) c j = pcmSample t (nch lep10 s.actChmode) c j

theorem EncodesAlike.encodeFrame_eq {s t : State} (h : EncodesAlike s t) :
    encodeFrame lep10 s = encodeFrame lep10 t := by
  have hpayload : ∀ i, payloadByte lep10 (coefficient lep10 s (nch lep10 s.actChmode)) (nch lep10 s.actChmode) i =
      payloadByte lep10 (coefficient lep10 t (nch lep10 s.actChmode)) (nch lep10 s.actChmode) i :=
    payloadByte_congr fun c hc => coefficient_congr (h.tails c hc) (h.blocks c hc)
  simp only [encodeFrame, payload, funext hpayload, ← h.quality, ← h.chmode, ← h.sfreq]

/-! ### Silence (R150, R177 item 1) -/

/-- A basis value times a windowed +0.0 adds nothing to +0.0. -/
theorem accumulate_windowed_zero (k : Nat) {a : Nat → F32} {n : Nat} (hn : n < 256) (ha : a n = 0#32) :
    accumulate (bas k) (windowed win a) 0#32 n = 0#32 := by
  obtain ⟨hwin, -, -⟩ := win_bounds hn
  obtain ⟨hbas, -, -⟩ := bas_bounds k n
  obtain ⟨hwindowed, hwindowed0⟩ := magnitude_fmul_zero hwin (z := 0#32) (by decide) (by decide)
  obtain ⟨hproduct, hproduct0⟩ := magnitude_fmul_zero hbas hwindowed hwindowed0
  rw [accumulate, windowed, ha]
  exact fadd_posZero_zero hproduct hproduct0

/-- The transform of an all +0.0 window is all +0.0: the sum of R175 never leaves its first value. -/
theorem transform_eq_zero {a : Nat → F32} (h : ∀ n, n < 256 → a n = 0#32) (k : Nat) : transform a k = 0#32 := by
  rw [transform, transformWith, project]
  refine List.foldlRecOn (motive := (· = 0#32)) _ _ rfl fun acc hacc n hn => ?_
  rw [List.mem_range] at hn
  rw [hacc, accumulate_windowed_zero k hn (h n hn)]

/-- A silent block after a silent tail has +0.0 coefficients. -/
theorem coefficient_eq_zero {s : State} {n c : Nat} (htail : overlap s c = silence)
    (hblock : ∀ j, j < 128 → pcmSample s n c j = 0#16) (k : Nat) : coefficient lep10 s n c k = 0#32 := by
  rw [coefficient_lep10]
  refine transform_eq_zero (fun m hm => ?_) k
  rcases window_cases hm with hm' | ⟨j, hj, rfl⟩
  · rw [analysisInput_tail s n c hm', htail, silence, Vector.getElem_replicate]
  · rw [analysisInput_block, hblock j hj, f32OfSample_zero]

theorem newOverlap_eq_silence {s : State} {n c : Nat} (hblock : ∀ j, j < 128 → pcmSample s n c j = 0#16) :
    newOverlap lep10 s n c = silence :=
  Vector.ext fun j hj => by
    rw [newOverlap_getElem s n c hj, hblock j hj, f32OfSample_zero, silence, Vector.getElem_replicate]

theorem overlap_eq_silence {s : State} (h0 : s.ovl0 = silence) (h1 : s.ovl1 = silence) (c : Nat) :
    overlap s c = silence := by
  rw [overlap, h0, h1, ite_self]

end Sys2Proof.Machine
end

section
/-! PROOFS. ENCODE: what it commits, whom it turns away, and what its frame depends on (R140 to R153). -/

namespace Sys2Proof.Machine

/-! ### The state after a successful ENCODE (R141, R148, R205) -/

theorem eq_of_encode_admitted {s t : State} (hadmits : s.admitsEncode) (h : exec .encode s = .next t) :
    t = commandDone (encodeCommit lep10 s) :=
  Host.Outcome.next.inj (h.symm.trans (exec_encode_admitted hadmits))

/-- The tail of an active channel is its block. -/
theorem overlap_encodeCommit (s : State) {c : Nat} (hc : c < nch lep10 s.actChmode) :
    overlap (commandDone (encodeCommit lep10 s)) c = newOverlap lep10 s (nch lep10 s.actChmode) c := by
  rw [overlap, commandDone_ovl0, commandDone_ovl1, encodeCommit_ovl0, encodeCommit_ovl1]
  rcases Nat.eq_zero_or_pos c with rfl | hpos
  · rw [if_pos rfl]
  · have hn := nch_cases s.actChmode
    obtain rfl : c = 1 := by omega
    rw [if_neg (by decide), if_pos hc]

/-- ENCODE does not write PCM_BUF. -/
theorem pcmByte_encodeCommit (s : State) {o : Nat} (ho : o < pcmSize) :
    pcmByte (commandDone (encodeCommit lep10 s)) o = pcmByte s o := by
  rw [pcmSize] at ho
  rw [pcmByte, byteAt_encodeCommit, if_neg (by simp only [frameBase, pcmBase]; omega), pcmByte]

/-- With its arguments left in place an ENCODE is admitted again. -/
theorem admitsEncode_encodeCommit {s : State} (h : s.admitsEncode) :
    (commandDone (encodeCommit lep10 s)).admitsEncode := by
  obtain ⟨-, hformat, hlen, hcapacity⟩ := h
  exact ⟨.inr rfl, hformat, hlen, hcapacity⟩

theorem blockSilent_encodeCommit {s : State} (h : s.blockSilent) :
    (commandDone (encodeCommit lep10 s)).blockSilent := fun o ho => by
  rw [commandDone_actChmode, encodeCommit_actChmode] at ho
  rw [pcmByte_encodeCommit s (ho.trans_le (consumed_le_pcmSize _)), h o ho]

/-- Two ENCODEs in states that encode alike leave the same frame. -/
theorem EncodesAlike.frameByte_eq {s t s' t' : State} (h : EncodesAlike s t) (hs : s.admitsEncode)
    (ht : t.admitsEncode) (hs' : exec .encode s = .next s') (ht' : exec .encode t = .next t') {b : Nat}
    (hb : b < 3 + payloadBytes lep10 s.actQuality) : frameByte s' b = frameByte t' b := by
  rw [frameByte_of_encode hs hs' hb, frameByte_of_encode ht ht' (h.quality ▸ hb), h.encodeFrame_eq]

/-- A second ENCODE of silence has nothing but silence in its windows (R149). -/
theorem tail_after_silent_block {s : State} (h : s.blockSilent) {c : Nat} (hc : c < nch lep10 s.actChmode) :
    overlap (commandDone (encodeCommit lep10 s)) c = silence := by
  rw [overlap_encodeCommit s hc]
  exact newOverlap_eq_silence fun j hj => pcmSample_of_blockSilent h hc hj

/-! ### The counter (R35, R151) -/

/-- Settles O39: the three commands that write the counter by their rules, everything else by its effect. -/
theorem blockCounterCountsSuccessfulEncodes : Obligations.BlockCounterCountsSuccessfulEncodes := by
  unfold Obligations.BlockCounterCountsSuccessfulEncodes
  intro i s t h
  refine ⟨?counts, ?clears, ?keeps⟩
  case counts =>
    rintro rfl hadmits
    rw [eq_of_encode_admitted hadmits h, commandDone_blockCount, encodeCommit_blockCount, BitVec.toNat_add]
    rfl
  case clears =>
    rintro (rfl | ⟨rfl, hlive⟩ | ⟨rfl, hconfigures⟩)
    · exact Host.Outcome.next.inj ((exec_create s).symm.trans h) ▸ rfl
    · exact Host.Outcome.next.inj ((exec_destroy_live hlive).symm.trans h) ▸ rfl
    · exact Host.Outcome.next.inj ((exec_configure_legal hconfigures).symm.trans h) ▸ rfl
  case keeps =>
    intro hencode hcreate hdestroy hconfigure
    cases exec_effect h with
    | encode hadmits => exact absurd ⟨rfl, hadmits⟩ hencode
    | create => exact absurd rfl hcreate
    | destroy hlive => exact absurd ⟨rfl, hlive⟩ hdestroy
    | configure hsession hlegal => exact absurd ⟨rfl, hsession, hlegal⟩ hconfigure
    | portWrite r v => rw [r.set_frame]; rfl
    | raised | read | ldpcm | busErr => rfl

/-! ### Refusal (R141, R152) -/

/-- Settles O40: each check that fails contradicts the clause of `State.admitsEncode` it stands for. -/
theorem encodeRefusedByAnyCheck : Obligations.EncodeRefusedByAnyCheck := by
  unfold Obligations.EncodeRefusedByAnyCheck
  intro s hlive hfails
  have hrefused : ¬ s.admitsEncode := by
    rintro ⟨hconfigured, hformat, hlen, hcapacity⟩
    rcases hfails with hsession | hformat' | ⟨hmono, hlen'⟩ | ⟨hmono, hlen'⟩ | hcapacity'
    · rw [hsession] at hconfigured
      rcases hconfigured with hready | hencoding
      · cases hready
      · cases hencoding
    · exact hformat' hformat
    · rw [if_pos hmono] at hlen
      exact hlen' hlen
    · rw [if_neg hmono] at hlen
      exact hlen' hlen
    · omega
  rw [exec_encode_refused hlive hrefused, raiseError_eq]

/-- An ENCODE that is not admitted raises an error, in a dead state and in a live one. -/
theorem eq_raiseError_of_encode_refused {s t : State} (hrefused : ¬ s.admitsEncode) (h : exec .encode s = .next t) :
    ∃ code, t = raiseError s code := by
  by_cases hdead : s.dead
  · exact ⟨.fatal, Host.Outcome.next.inj (h.symm.trans (exec_command_dead hdead rfl nofun))⟩
  · exact ⟨.illegalParameter,
      Host.Outcome.next.inj (h.symm.trans (exec_encode_refused (live_of_not_dead hdead) hrefused))⟩

/-- ENCODE reads neither LAST_ERROR nor the response, and writes both whatever it does. -/
theorem exec_encode_raiseError (s : State) (code : ErrorCode) : exec .encode (raiseError s code) = exec .encode s := by
  by_cases hdead : s.dead
  · have hdead' : (raiseError s code).dead := hdead
    rw [exec_command_dead (i := .encode) hdead rfl nofun, exec_command_dead (i := .encode) hdead' rfl nofun]
    rfl
  have hlive : s.live := live_of_not_dead hdead
  have hlive' : (raiseError s code).live := hlive
  by_cases hadmits : s.admitsEncode
  · have hadmits' : (raiseError s code).admitsEncode := hadmits
    rw [exec_encode_admitted hadmits, exec_encode_admitted hadmits']
    rfl
  · have hrefused' : ¬ (raiseError s code).admitsEncode := hadmits
    rw [exec_encode_refused hlive hadmits, exec_encode_refused hlive' hrefused']
    rfl

/-- Settles O48: the failed ENCODE only raised an error, which no later ENCODE sees, whatever its arguments. -/
theorem failedEncodeLeavesNoTrace : Obligations.FailedEncodeLeavesNoTrace := by
  unfold Obligations.FailedEncodeLeavesNoTrace
  intro s t hrefused h
  obtain ⟨code, rfl⟩ := eq_raiseError_of_encode_refused hrefused h
  constructor
  · rw [exec_encode_raiseError, h]
  · intro len cap
    exact exec_encode_raiseError { s with pcmLen := len, outCapacity := cap } code

/-! ### Commit (R140, R141, R145, R148) -/

/-- Settles O41: the writes of `encodeCommit`, with the de-interleaving of R75 read off at one and at two channels. -/
theorem encodeCommitsResultsAndOverlap : Obligations.EncodeCommitsResultsAndOverlap := by
  unfold Obligations.EncodeCommitsResultsAndOverlap
  intro s hadmits
  refine ⟨_, exec_encode_admitted hadmits, rfl, rfl, rfl, rfl, rfl, ?high, ?standard, ?mobile, ?mono, ?stereo, ?bytes,
    rfl⟩
  case high | standard | mobile =>
    intro hquality
    rw [commandDone_frameLen, encodeCommit_frameLen, hquality]
    rfl
  case mono =>
    intro hmono
    have hn : nch lep10 s.actChmode = 1 := nch_of_mono hmono
    refine ⟨?_, ?_, fun j => ?_⟩
    · rw [commandDone_consumed, encodeCommit_consumed, hn]; rfl
    · rw [commandDone_ovl1, encodeCommit_ovl1, hn, if_neg (by decide)]
    · rw [commandDone_ovl0, encodeCommit_ovl0, hn, Fin.getElem_fin, newOverlap_getElem s 1 0 j.isLt, pcmSample,
        show 2 * (j.val * 1 + 0) = 2 * j.val by omega]
  case stereo =>
    intro hstereo
    have hn : nch lep10 s.actChmode = 2 := nch_of_not_mono hstereo
    refine ⟨?_, fun j => ⟨?_, ?_⟩⟩
    · rw [commandDone_consumed, encodeCommit_consumed, hn]; rfl
    · rw [commandDone_ovl0, encodeCommit_ovl0, hn, Fin.getElem_fin, newOverlap_getElem s 2 0 j.isLt, pcmSample,
        show 2 * (j.val * 2 + 0) = 4 * j.val by omega]
    · rw [commandDone_ovl1, encodeCommit_ovl1, hn, if_pos (by decide), Fin.getElem_fin,
        newOverlap_getElem s 2 1 j.isLt, pcmSample, show 2 * (j.val * 2 + 1) = 4 * j.val + 2 by omega]
  case bytes =>
    intro a ha
    rw [byteAt_encodeCommit, if_neg (by omega)]

/-- Settles O43: the block is the second half of this window, and as the retained tail the first half of the next. -/
theorem sampleIsInTwoConsecutiveWindows : Obligations.SampleIsInTwoConsecutiveWindows := by
  unfold Obligations.SampleIsInTwoConsecutiveWindows
  rintro s t n c j hadmits h rfl hc hj
  obtain rfl := eq_of_encode_admitted hadmits h
  refine ⟨?_, analysisInput_block _ _ _ _, ?_⟩
  · rw [commandDone_actChmode, encodeCommit_actChmode]
  · rw [analysisInput_tail _ _ _ hj, overlap_encodeCommit s hc, newOverlap_getElem _ _ _ hj]

/-! ### What the frame depends on (R149, R150, R153) -/

/-- Settles O47: the statement's premises are those of `EncodesAlike`. -/
theorem frameDependsOnSessionAndBlockOnly : Obligations.FrameDependsOnSessionAndBlockOnly := by
  unfold Obligations.FrameDependsOnSessionAndBlockOnly
  intro s₁ s₂ t₁ t₂ hs₁ hs₂ hquality hchmode hsfreq hovl0 hovl1 hblock ht₁ ht₂ b hb
  have halike : EncodesAlike s₁ s₂ :=
    { quality := hquality
      chmode := hchmode
      sfreq := hsfreq
      tails := fun c _ => by rw [overlap, overlap, hovl0, hovl1]
      blocks := fun c hc j hj => pcmSample_congr hblock hc hj }
  exact halike.frameByte_eq hs₁ hs₂ ht₁ ht₂ hb

/-- The tails that an ENCODE of equal blocks leaves in the active channels are equal, also in later states that still
hold them (R148). -/
theorem overlap_eq_of_equal_blocks {s₁ s₂ u₁ u₂ : State} (hchmode : s₁.actChmode = s₂.actChmode)
    (hblock : ∀ o, o < 256 * nch lep10 s₁.actChmode → pcmByte s₁ o = pcmByte s₂ o)
    (hu₁ : ∀ c, overlap u₁ c = overlap (commandDone (encodeCommit lep10 s₁)) c)
    (hu₂ : ∀ c, overlap u₂ c = overlap (commandDone (encodeCommit lep10 s₂)) c) {c : Nat}
    (hc : c < nch lep10 s₁.actChmode) : overlap u₁ c = overlap u₂ c := by
  rw [hu₁, hu₂, overlap_encodeCommit s₁ hc, overlap_encodeCommit s₂ (hchmode ▸ hc), ← hchmode]
  exact newOverlap_congr fun j hj => pcmSample_congr hblock hc hj

/-- Settles O46: the tails before the second ENCODEs are the equal first blocks, so the second ENCODEs are alike. -/
theorem frameDependsOnTwoBlocksOnly : Obligations.FrameDependsOnTwoBlocksOnly := by
  unfold Obligations.FrameDependsOnTwoBlocksOnly
  rintro s₁ s₂ t₁ t₂ u₁ u₂ w₁ w₂ hs₁ hs₂ ht₁ ht₂ hquality hchmode hsfreq hfirst
    ⟨hquality₁, hchmode₁, hsfreq₁, hovl0₁, hovl1₁⟩ ⟨hquality₂, hchmode₂, hsfreq₂, hovl0₂, hovl1₂⟩ hsecond
    hu₁ hu₂ hw₁ hw₂ b hb
  obtain rfl := eq_of_encode_admitted hs₁ ht₁
  obtain rfl := eq_of_encode_admitted hs₂ ht₂
  simp only [commandDone_actQuality, encodeCommit_actQuality] at hquality₁ hquality₂
  simp only [commandDone_actChmode, encodeCommit_actChmode] at hchmode₁ hchmode₂
  simp only [commandDone_actSfreq, encodeCommit_actSfreq] at hsfreq₁ hsfreq₂
  have halike : EncodesAlike u₁ u₂ :=
    { quality := by rw [hquality₁, hquality₂, hquality]
      chmode := by rw [hchmode₁, hchmode₂, hchmode]
      sfreq := by rw [hsfreq₁, hsfreq₂, hsfreq]
      tails := fun c hc => overlap_eq_of_equal_blocks hchmode hfirst
        (fun d => by rw [overlap, overlap, hovl0₁, hovl1₁]) (fun d => by rw [overlap, overlap, hovl0₂, hovl1₂])
        (hchmode₁ ▸ hc)
      blocks := fun c hc j hj => pcmSample_congr (hchmode₁ ▸ hsecond) hc hj }
  exact halike.frameByte_eq hu₁ hu₂ hw₁ hw₂ (hquality₁ ▸ hb)

/-- Settles O45: after the first silent block the tails are silent, so the second ENCODE has +0.0 windows and encodes
alike with one on an all-zero OVL. -/
theorem silenceDecaysInOneBlock : Obligations.SilenceDecaysInOneBlock := by
  unfold Obligations.SilenceDecaysInOneBlock
  intro s t u v w hs hsilent ht hu hv hvsilent hovl0 hovl1 hquality hchmode hsfreq hw
  obtain rfl := eq_of_encode_admitted hs ht
  have hadmits := admitsEncode_encodeCommit hs
  have hblock {c j : Nat} (hc : c < nch lep10 s.actChmode) (hj : j < 128) :
      pcmSample (commandDone (encodeCommit lep10 s)) (nch lep10 s.actChmode) c j = 0#16 :=
    pcmSample_of_blockSilent (blockSilent_encodeCommit hsilent) hc hj
  have halike : EncodesAlike (commandDone (encodeCommit lep10 s)) v :=
    { quality := hquality.symm
      chmode := hchmode.symm
      sfreq := hsfreq.symm
      tails := fun c hc => by rw [tail_after_silent_block hsilent hc, overlap_eq_silence hovl0 hovl1]
      blocks := fun c hc j hj => by
        have hvblock := pcmSample_of_blockSilent hvsilent (c := c) (j := j) (hchmode.symm ▸ hc) hj
        rw [hchmode] at hvblock
        exact (hblock hc hj).trans hvblock.symm }
  refine ⟨?count, fun c k hc _ => ?zero, fun b hb => halike.frameByte_eq hadmits hv hu hw hb⟩
  case count =>
    rw [eq_of_encode_admitted hadmits hu]
    simp only [commandDone_blockCount, encodeCommit_blockCount, BitVec.add_assoc]
    rfl
  case zero => exact coefficient_eq_zero (tail_after_silent_block hsilent hc) (fun j hj => hblock hc hj) k

/-! ### Samples as binary32 values (R147) -/

/-- The integer of a sample is a significand of fewer than 24 bits, so its one rounding is finite and exact. -/
theorem f32OfSample_finite_magnitude (x : BitVec 16) :
    isFinite (f32OfSample x) = true ∧ magnitude (f32OfSample x) = x.toInt.natAbs * 2 ^ 149 := by
  have hrange : x.toInt.natAbs ≤ 32768 := by
    have hlow := BitVec.le_toInt x
    have hhigh := BitVec.toInt_lt (x := x)
    omega
  have hfinite : isFinite (f32OfSample x) = true := by
    refine isFinite_of_below _ _ _ ?_
    calc x.toInt.natAbs * 2 ^ 149 ≤ 32768 * 2 ^ 149 := Nat.mul_le_mul_right _ hrange
      _ < (2 ^ 25 - 1) * 2 ^ (252 + 0) := by norm_num
  exact ⟨hfinite, magnitude_roundToF32_exact _ _ 0 _ 149 (by omega) (by rw [pow_zero, mul_one]) hfinite⟩

/-- Settles O53: the sign is the integer's and the magnitude exact. -/
theorem sampleConversionIsExact : Obligations.SampleConversionIsExact := by
  unfold Obligations.SampleConversionIsExact
  intro x
  obtain ⟨hfinite, hmagnitude⟩ := f32OfSample_finite_magnitude x
  have hsign : signBit (f32OfSample x) = decide (x.toInt < 0) := signBit_roundToF32 _ _ _
  refine ⟨hfinite, ?_⟩
  rw [units_eq, hsign, hmagnitude]
  by_cases hneg : x.toInt < 0
  · rw [if_pos (decide_eq_true hneg)]
    push_cast
    rw [abs_of_neg hneg, neg_mul, neg_neg]
  · rw [if_neg (by simpa using hneg)]
    push_cast
    rw [abs_of_nonneg (not_lt.mp hneg)]

end Sys2Proof.Machine
end

section
/-! PROOFS. The bitrate query (R160, R162, R163). -/

namespace Sys2Proof.Machine

/-! ### The answer of the query and its gate (R163) -/

theorem decodeRequest_getBr (v : Word) : decodeRequest ⟨false, 0x028#12, v⟩ = .getBr := by
  simp [decodeRequest_read, decodeRead]

theorem exec_getBr (s : State) : exec .getBr s = .next (answer s (bitrateWord lep10 s)) := rfl

theorem bitrateWord_of_configured (c : Config) {s : State} (h : s.session = .ready ∨ s.session = .encoding) :
    bitrateWord c s = bitrate c s.actQuality s.actSfreq := by
  rw [bitrateWord, if_pos ((isConfigured_iff _).mpr h)]

theorem bitrateWord_of_unconfigured (c : Config) {s : State} (hready : s.session ≠ .ready)
    (hencoding : s.session ≠ .encoding) : bitrateWord c s = 0 := by
  have hclosed : ¬ isConfigured s.session = true := mt (isConfigured_iff _).mp (not_or.mpr ⟨hready, hencoding⟩)
  rw [bitrateWord, if_neg hclosed]
  rfl

/-! ### R162's formula and its table -/

/-- Where 32 bits hold the product, the 32-bit computation is R162's formula. -/
theorem toNat_bitrate {c : Config} {quality freq : Word} (h : payloadBytes c quality * 8 * freq.toNat < 2 ^ 32) :
    (bitrate c quality freq).toNat = payloadBytes c quality * 8 * freq.toNat / 128 := by
  rw [bitrate, if_pos h, BitVec.toNat_ofNat, Nat.mod_eq_of_lt (Nat.lt_of_le_of_lt (Nat.div_le_self _ _) h)]

/-- R160's lookup, as pairs of a quality and its payload bytes. -/
def payloadTable : List (Nat × Nat) := [(0, 330), (1, 220), (2, 110)]

theorem payloadBytes_eq_of_mem_payloadTable {quality : Word} {p : Nat} (h : (quality.toNat, p) ∈ payloadTable) :
    payloadBytes lep10 quality = p := by
  simp only [payloadTable, List.mem_cons, List.not_mem_nil, or_false, Prod.mk.injEq] at h
  rcases h with ⟨hquality, rfl⟩ | ⟨hquality, rfl⟩ | ⟨hquality, rfl⟩
  · obtain rfl : quality = 0#32 := BitVec.eq_of_toNat_eq hquality
    rfl
  · obtain rfl : quality = 1#32 := BitVec.eq_of_toNat_eq hquality
    rfl
  · obtain rfl : quality = 2#32 := BitVec.eq_of_toNat_eq hquality
    rfl

/-- R162's table: quality, payload bytes, sampling frequency and bitrate. -/
def bitrateTable : List (Nat × Nat × Nat × Nat) :=
  [(0, 330, 44100, 909562), (0, 330, 48000, 990000), (0, 330, 88200, 1819125), (0, 330, 96000, 1980000),
    (1, 220, 44100, 606375), (1, 220, 48000, 660000), (1, 220, 88200, 1212750), (1, 220, 96000, 1320000),
    (2, 110, 44100, 303187), (2, 110, 48000, 330000), (2, 110, 88200, 606375), (2, 110, 96000, 660000)]

/-- Each row takes its payload from R160's lookup, its product fits 32 bits, and its bitrate is the truncated
quotient. -/
theorem bitrateTable_rows : ∀ row ∈ bitrateTable,
    (row.1, row.2.1) ∈ payloadTable ∧ row.2.1 * 8 * row.2.2.1 < 2 ^ 32 ∧
      row.2.1 * 8 * row.2.2.1 / 128 = row.2.2.2 := by
  decide

/-- The bitrate of a row's quality and frequency is R162's formula on that row. -/
theorem toNat_bitrate_of_mem_bitrateTable {quality freq : Word} {row : Nat × Nat × Nat × Nat}
    (hrow : row ∈ bitrateTable) (hquality : quality.toNat = row.1) (hfreq : freq.toNat = row.2.2.1) :
    (bitrate lep10 quality freq).toNat = row.2.1 * 8 * row.2.2.1 / 128 := by
  obtain ⟨hpayload, hfits, -⟩ := bitrateTable_rows row hrow
  rw [← hquality] at hpayload
  rw [← payloadBytes_eq_of_mem_payloadTable hpayload, ← hfreq] at hfits ⊢
  exact toNat_bitrate hfits

/-- Settles O19: the gate of `bitrateWord` is open exactly in Ready and Encoding, and behind it every row of R162's
table is the formula's value. -/
theorem bitrateQueryAnswersTheTable : Obligations.BitrateQueryAnswersTheTable := by
  unfold Obligations.BitrateQueryAnswersTheTable
  refine ⟨decodeRequest_getBr, fun s => ⟨_, exec_getBr s, bitrateWord_of_unconfigured lep10,
    fun hconfigured row hrow hquality hfreq => ?_⟩⟩
  obtain ⟨-, -, hvalue⟩ := bitrateTable_rows row hrow
  have hformula := toNat_bitrate_of_mem_bitrateTable hrow hquality hfreq
  rw [bitrateWord_of_configured lep10 hconfigured]
  exact ⟨hformula.trans hvalue, hformula⟩

end Sys2Proof.Machine
end

section
/-! PROOFS. Binary32 operations against the exact integers, and the quantizer against the exact quotient (R170, R178).
A sign and a natural number are read as one integer, `signedInt`, so that rounding a magnitude is rounding a value. -/

namespace Sys2Proof.Machine

/-! ### Signed values -/

/-- The integer with this sign and this magnitude. -/
def signedInt (s : Bool) (n : Nat) : Int := if s then -(n : Int) else n

theorem units_eq_signedInt (x : F32) : units x = signedInt (signBit x) (magnitude x) := rfl

theorem rne_eq_signedInt (y : F32) : rne y = signedInt (signBit y) (rneShift (magnitude y) 149) := rfl

@[simp] theorem signedInt_zero (s : Bool) : signedInt s 0 = 0 := by cases s <;> rfl

theorem signedInt_natAbs (t : Int) : signedInt (decide (t < 0)) t.natAbs = t := by
  simp only [signedInt, decide_eq_true_eq]
  split <;> omega

theorem signedInt_mul (s t : Bool) (m n : Nat) :
    signedInt s m * signedInt t n = signedInt (s ^^ t) (m * n) := by
  cases s <;> cases t <;> simp [signedInt]

/-- The distance of two integers, seen from the sign of the first. -/
theorem abs_sub_signedInt (s : Bool) (n : Nat) (v : Int) :
    |v - signedInt s n| = |(n : Int) - if s then -v else v| := by
  cases s
  · exact abs_sub_comm _ _
  · exact congrArg abs (by simp only [signedInt, if_true]; omega)

theorem abs_signedInt (s : Bool) (n : Nat) : |signedInt s n| = n := by
  cases s <;> simp [signedInt]

/-! ### One rounding -/

/-- `roundToF32_nearest` beside every finite value of either sign: a value below zero is farther from a natural number
than zero is. -/
theorem roundToF32_nearest_int (s : Bool) (n k : Nat) {y : F32} (hy : isFinite y = true)
    (h : isFinite (roundToF32 s n k) = true) {v : Int} (hv : v.natAbs = magnitude y) :
    |(n : Int) - magnitude (roundToF32 s n k) * 2 ^ k| ≤ |(n : Int) - v * 2 ^ k| ∧
    (|(n : Int) - magnitude (roundToF32 s n k) * 2 ^ k| = |(n : Int) - v * 2 ^ k| →
      v = magnitude (roundToF32 s n k) ∨ (roundToF32 s n k).getLsbD 0 = false) := by
  rcases le_or_gt 0 v with hpos | hneg
  · obtain ⟨m, q, hmq, hm, -⟩ := magnitude_form y hy
    have hvmq : v = (m : Int) * 2 ^ q := by
      rw [← Int.natAbs_of_nonneg hpos, hv, hmq]
      push_cast
      rfl
    obtain ⟨hle, htie⟩ := roundToF32_nearest s n k m q hm h
    rw [hvmq]
    refine ⟨hle, fun heq => (htie heq).imp_left fun hmag => ?_⟩
    rw [hmag]
    push_cast
    rfl
  · have hzero := (roundToF32_nearest s n k 0 0 (by decide) h).1
    have hfar : (n : Int) < (n : Int) - v * 2 ^ k := by
      have : v * 2 ^ k < 0 := mul_neg_of_neg_of_pos hneg (by positivity)
      omega
    rw [Nat.cast_zero, zero_mul, zero_mul, sub_zero, Nat.abs_cast] at hzero
    rw [abs_of_nonneg (show (0 : Int) ≤ (n : Int) - v * 2 ^ k by omega)]
    exact ⟨by omega, fun heq => absurd heq (by omega)⟩

/-- R170: the rounding of a signed value is the finite value nearest to it, on a tie the one whose last bit is 0. -/
theorem units_roundToF32_nearest (s : Bool) (n k : Nat) (h : isFinite (roundToF32 s n k) = true) {y : F32}
    (hy : isFinite y = true) :
    |units (roundToF32 s n k) * 2 ^ k - signedInt s n| ≤ |units y * 2 ^ k - signedInt s n| ∧
    (|units (roundToF32 s n k) * 2 ^ k - signedInt s n| = |units y * 2 ^ k - signedInt s n| →
      units y = units (roundToF32 s n k) ∨ (roundToF32 s n k).getLsbD 0 = false) := by
  rw [abs_sub_signedInt, abs_sub_signedInt, units_roundToF32]
  cases s
  · simpa using roundToF32_nearest_int false n k hy h (natAbs_units y)
  · have hnearest := roundToF32_nearest_int true n k hy h (v := -units y) (by rw [Int.natAbs_neg, natAbs_units])
    simpa [neg_mul, neg_eq_iff_eq_neg] using hnearest

/-- A rounding below a finite value's magnitude is finite and does not pass it. -/
theorem roundToF32_le_representable (s : Bool) (n k m q : Nat) (hm : m < 2 ^ 24) (hq : q ≤ 253)
    (hn : n ≤ m * 2 ^ q * 2 ^ k) :
    isFinite (roundToF32 s n k) = true ∧ magnitude (roundToF32 s n k) ≤ m * 2 ^ q := by
  have hfinite : isFinite (roundToF32 s n k) = true := by
    refine isFinite_of_below s n k ?_
    calc n ≤ m * 2 ^ q * 2 ^ k := hn
      _ ≤ (2 ^ 24 - 1) * 2 ^ 253 * 2 ^ k :=
        Nat.mul_le_mul_right _ (Nat.mul_le_mul (by omega) (Nat.pow_le_pow_right (by decide) hq))
      _ = (2 ^ 25 - 2) * 2 ^ (252 + k) := by rw [pow_add]; ring
      _ < (2 ^ 25 - 1) * 2 ^ (252 + k) := Nat.mul_lt_mul_of_pos_right (by norm_num) (Nat.two_pow_pos _)
  exact ⟨hfinite, magnitude_roundToF32_le s n k m q hm hn hfinite⟩

/-- A rounding does not fall below a representable bound. -/
theorem le_magnitude_roundToF32 (s : Bool) (n k m q : Nat) (hm : m < 2 ^ 24) (hn : m * 2 ^ q * 2 ^ k ≤ n)
    (h : isFinite (roundToF32 s n k) = true) : m * 2 ^ q ≤ magnitude (roundToF32 s n k) := by
  by_contra hlt
  have hnearest := (roundToF32_nearest s n k m q hm h).1
  have hstep : magnitude (roundToF32 s n k) * 2 ^ k < m * 2 ^ q * 2 ^ k :=
    Nat.mul_lt_mul_of_pos_right (not_le.mp hlt) (Nat.two_pow_pos k)
  have hstep' : (magnitude (roundToF32 s n k) : Int) * 2 ^ k < m * 2 ^ q * 2 ^ k := by exact_mod_cast hstep
  have hn' : (m : Int) * 2 ^ q * 2 ^ k ≤ n := by exact_mod_cast hn
  rw [abs_of_nonneg (by omega), abs_of_nonneg (by omega)] at hnearest
  omega

/-! ### Addition and multiplication (R170) -/

theorem isFinite_withSign_zero (s : Bool) : isFinite (withSign s 0) = true := by cases s <;> decide

theorem magnitude_withSign_zero (s : Bool) : magnitude (withSign s 0) = 0 := by cases s <;> decide

/-- A finite sum that is not zero is one rounding of the exact sum. -/
theorem fadd_of_sum_ne_zero {a b : F32} (ha : isFinite a = true) (hb : isFinite b = true)
    (hsum : units a + units b ≠ 0) :
    fadd a b = roundToF32 (decide (units a + units b < 0)) (units a + units b).natAbs 0 := by
  rw [fadd_of_finite ha hb, if_neg hsum]

/-- A sum that is zero is the zero of R170's sign. -/
theorem fadd_of_sum_eq_zero {a b : F32} (ha : isFinite a = true) (hb : isFinite b = true)
    (hsum : units a + units b = 0) : fadd a b = withSign (signBit a && signBit b) 0 := by
  rw [fadd_of_finite ha hb, if_pos hsum]

/-- Half a step past the largest finite value is where a sum overflows. -/
theorem isFinite_fadd {a b : F32} (ha : isFinite a = true) (hb : isFinite b = true)
    (hsum : |units a + units b| < (2 ^ 25 - 1) * 2 ^ 252) : isFinite (fadd a b) = true := by
  by_cases hzero : units a + units b = 0
  · rw [fadd_of_sum_eq_zero ha hb hzero]
    exact isFinite_withSign_zero _
  · rw [fadd_of_sum_ne_zero ha hb hzero]
    refine isFinite_of_below _ _ _ ?_
    zify
    exact hsum

/-- Settles O51: an exact zero sum is a zero, which nothing is nearer to; any other sum is rounded once. -/
theorem additionRoundsToNearestEven : Obligations.AdditionRoundsToNearestEven := by
  unfold Obligations.AdditionRoundsToNearestEven
  intro a b ha hb
  refine ⟨fun hzero => ?sign, isFinite_fadd ha hb, fun hfinite y hy => ?nearest⟩
  case sign =>
    rw [fadd_of_sum_eq_zero ha hb hzero]
    cases signBit a <;> cases signBit b <;> rfl
  case nearest =>
    by_cases hzero : units a + units b = 0
    · have hunits : units (fadd a b) = 0 := by
        rw [fadd_of_sum_eq_zero ha hb hzero, units_eq_signedInt, magnitude_withSign_zero, signedInt_zero]
      rw [hzero, hunits, sub_zero, sub_zero, abs_zero]
      exact ⟨abs_nonneg _, fun heq => .inl (abs_eq_zero.mp heq.symm)⟩
    · rw [fadd_of_sum_ne_zero ha hb hzero] at hfinite ⊢
      simpa only [pow_zero, mul_one, signedInt_natAbs] using units_roundToF32_nearest _ _ 0 hfinite hy

/-- Settles O52: the exact product, as a sign and a magnitude, is rounded once. -/
theorem multiplicationRoundsToNearestEven : Obligations.MultiplicationRoundsToNearestEven := by
  unfold Obligations.MultiplicationRoundsToNearestEven
  intro a b ha hb
  have hproduct : units a * units b = signedInt (signBit a ^^ signBit b) (magnitude a * magnitude b) :=
    signedInt_mul _ _ _ _
  refine ⟨?sign, fun hbelow => ?finite, fun hfinite y hy => ?nearest⟩
  case sign => rw [fmul_of_finite ha hb, signBit_roundToF32]
  case finite =>
    rw [hproduct, abs_signedInt] at hbelow
    rw [fmul_of_finite ha hb]
    refine isFinite_of_below _ _ 149 ?_
    zify
    exact hbelow
  case nearest =>
    rw [fmul_of_finite ha hb] at hfinite ⊢
    rw [hproduct]
    exact units_roundToF32_nearest _ _ 149 hfinite hy

/-! ### The quantizer (R178) -/

/-- r is an integer nearest to t / 2^d, on a tie an even one. -/
def IsNearestEven (t : Int) (d : Nat) (r : Int) : Prop :=
  2 * |t - r * 2 ^ d| ≤ 2 ^ d ∧ (2 * |t - r * 2 ^ d| = 2 ^ d → r % 2 = 0)

/-- Two nearest integers differ by one at most, and then both are on the tie and one of them is odd. -/
theorem IsNearestEven.unique {t : Int} {d : Nat} {r r' : Int} (h : IsNearestEven t d r)
    (h' : IsNearestEven t d r') : r = r' := by
  obtain ⟨hle, htie⟩ := h
  obtain ⟨hle', htie'⟩ := h'
  have hstep : (0 : Int) < 2 ^ d := by positivity
  have htriangle : |(r - r') * 2 ^ d| ≤ |t - r * 2 ^ d| + |t - r' * 2 ^ d| := by
    rw [show (r - r') * 2 ^ d = (t - r' * 2 ^ d) - (t - r * 2 ^ d) by ring, add_comm]
    exact abs_sub _ _
  rw [abs_mul, abs_of_pos hstep] at htriangle
  by_contra hne
  have hone : 1 ≤ |r - r'| := Int.one_le_abs (sub_ne_zero.mpr hne)
  have hlower : 1 * 2 ^ d ≤ |r - r'| * 2 ^ d := mul_le_mul_of_nonneg_right hone hstep.le
  have hdiff : |r - r'| = 1 :=
    le_antisymm (le_of_mul_le_mul_right (by linarith) hstep) hone
  have heven := htie (by linarith)
  have heven' := htie' (by linarith)
  rcases abs_eq (by norm_num) |>.mp hdiff with hd | hd <;> omega

/-- The nearest integer of a signed value is that of its magnitude with the sign. -/
theorem IsNearestEven.signedInt {n R d : Nat} (h : IsNearestEven n d R) (s : Bool) :
    IsNearestEven (signedInt s n) d (signedInt s R) := by
  cases s
  · exact h
  · obtain ⟨hle, htie⟩ := h
    have hmirror : |-(n : Int) - -(R : Int) * 2 ^ d| = |(n : Int) - R * 2 ^ d| := by
      rw [← abs_neg]
      congr 1
      ring
    simp only [Machine.signedInt, if_true, IsNearestEven, hmirror]
    exact ⟨hle, fun heq => by have := htie heq; omega⟩

theorem isNearestEven_rneShift (n : Nat) {d : Nat} (hd : d ≠ 0) : IsNearestEven n d (rneShift n d) := by
  obtain ⟨hle, htie⟩ := rneShift_error n d
  exact ⟨hle, fun heq => by have := (htie heq).resolve_right hd; omega⟩

/-- A factor that is a power of two moves between the value and the step. -/
theorem IsNearestEven.scale {t : Int} {d : Nat} {r : Int} (h : IsNearestEven t d r) (e : Nat) :
    IsNearestEven (t * 2 ^ e) (d + e) r := by
  obtain ⟨hle, htie⟩ := h
  have hpos : (0 : Int) < 2 ^ e := by positivity
  have herror : 2 * |t * 2 ^ e - r * 2 ^ (d + e)| = 2 * |t - r * 2 ^ d| * 2 ^ e := by
    rw [pow_add, ← mul_assoc, ← sub_mul, abs_mul, abs_of_pos hpos, mul_assoc]
  rw [IsNearestEven, herror, pow_add]
  exact ⟨mul_le_mul_of_nonneg_right hle hpos.le, fun heq => htie (mul_right_cancel₀ hpos.ne' heq)⟩

/-- A magnitude below half a step has the nearest integer 0. -/
theorem isNearestEven_zero {n d : Nat} (h : 2 * n < 2 ^ d) : IsNearestEven n d 0 := by
  have h' : 2 * (n : Int) < 2 ^ d := by exact_mod_cast h
  rw [IsNearestEven, zero_mul, sub_zero, Nat.abs_cast]
  exact ⟨h'.le, fun _ => rfl⟩

theorem rneShift_eq_zero {n d : Nat} (h : 2 * n < 2 ^ d) (hd : d ≠ 0) : rneShift n d = 0 := by
  exact_mod_cast (isNearestEven_rneShift n hd).unique (isNearestEven_zero h)

/-- The scaled operand of R178: one rounding of x / 32768. -/
theorem fmul_quantizerScale {x : F32} (hx : isFinite x = true) :
    fmul x quantizerScale = roundToF32 (signBit x) (magnitude x * 2 ^ 134) 149 := by
  have hscale : isFinite quantizerScale = true ∧ signBit quantizerScale = false ∧
      magnitude quantizerScale = 2 ^ 134 := by decide
  obtain ⟨hfinite, hsign, hmagnitude⟩ := hscale
  rw [fmul_of_finite hx hfinite, hsign, hmagnitude, Bool.xor_false]

theorem isFinite_fmul_quantizerScale {x : F32} (hx : isFinite x = true) :
    isFinite (fmul x quantizerScale) = true := by
  obtain ⟨m, q, hmq, hm, hq⟩ := magnitude_form x hx
  rw [fmul_quantizerScale hx]
  refine (roundToF32_le_representable _ _ 149 m q hm hq ?_).1
  rw [hmq]
  exact Nat.mul_le_mul_left _ (Nat.pow_le_pow_right (by decide) (by norm_num))

/-- Scaling does not disturb the nearest integer: from 2^40 units on the multiplication by 2^-15 is exact, and below
that x / 32768 and its rounding are both far below one half. -/
theorem isNearestEven_rneShift_scaled {x : F32} (hx : isFinite x = true) :
    IsNearestEven (magnitude x) 164 (rneShift (magnitude (fmul x quantizerScale)) 149) := by
  have hfinite := isFinite_fmul_quantizerScale hx
  rw [fmul_quantizerScale hx] at hfinite ⊢
  by_cases hsmall : magnitude x ≤ 2 ^ 40
  · have hscaled : magnitude (roundToF32 (signBit x) (magnitude x * 2 ^ 134) 149) ≤ 1 * 2 ^ 25 :=
      magnitude_roundToF32_le _ _ _ _ _ (by norm_num) (by omega) hfinite
    rw [rneShift_eq_zero (by omega) (by decide)]
    exact isNearestEven_zero (by omega)
  · obtain ⟨m, q, hmq, hm, -⟩ := magnitude_form x hx
    have hq : 15 ≤ q := by
      by_contra hlow
      have : m * 2 ^ q ≤ 2 ^ 24 * 2 ^ 15 :=
        Nat.mul_le_mul hm.le (Nat.pow_le_pow_right (by decide) (by omega))
      omega
    obtain ⟨p, rfl⟩ := Nat.exists_eq_add_of_le' hq
    have hexact : magnitude (roundToF32 (signBit x) (magnitude x * 2 ^ 134) 149) = m * 2 ^ p :=
      magnitude_roundToF32_exact _ _ _ _ _ hm (by rw [hmq, pow_add]; ring) hfinite
    have hvalue : (magnitude x : Int) = ((m * 2 ^ p : Nat) : Int) * 2 ^ 15 := by
      rw [hmq, pow_add]
      push_cast
      ring
    rw [hexact, hvalue]
    exact (isNearestEven_rneShift _ (by decide)).scale 15

/-- R178: rne of the scaled operand is the nearest integer of x / 32768, ties to even. -/
theorem isNearestEven_rne_scaled {x : F32} (hx : isFinite x = true) :
    IsNearestEven (units x) 164 (rne (fmul x quantizerScale)) := by
  have hsign : signBit (fmul x quantizerScale) = signBit x := by
    rw [fmul_quantizerScale hx, signBit_roundToF32]
  rw [rne_eq_signedInt, hsign]
  exact (isNearestEven_rneShift_scaled hx).signedInt (signBit x)

theorem quantize_of_finite {x : F32} (hx : isFinite x = true) :
    quantize x = BitVec.ofInt 8 (clip (rne (fmul x quantizerScale)) (-128) 127 + 128) := by
  simp [quantize, isNaN_of_finite hx, isInf_of_finite (isFinite_fmul_quantizerScale hx)]

/-- The byte holds the clipped integer without a wrap. -/
theorem toNat_clipped_byte (r : Int) :
    ((BitVec.ofInt 8 (clip r (-128) 127 + 128)).toNat : Int) = 128 + clip r (-128) 127 := by
  have hrange : -128 ≤ clip r (-128) 127 ∧ clip r (-128) 127 ≤ 127 := by
    simp only [clip]
    split
    · omega
    · split <;> omega
  rw [BitVec.toNat_ofInt]
  omega

/-- Settles O58: on finite x the integer that Q clips is the nearest one, and the nearest one is unique; the three
other kinds of pattern are Q's own cases. -/
theorem quantizerIsTheClippedNearestInteger : Obligations.QuantizerIsTheClippedNearestInteger := by
  unfold Obligations.QuantizerIsTheClippedNearestInteger
  refine ⟨fun x r hx hnearest htie => ?finite, fun x hx => ?nan, ?posInf, ?negInf⟩
  case finite =>
    have hr : IsNearestEven (units x) 164 r := ⟨hnearest, htie⟩
    rw [quantize_of_finite hx, toNat_clipped_byte, (isNearestEven_rne_scaled hx).unique hr, clip]
  case nan => rw [quantize, if_pos hx]
  case posInf => decide +kernel
  case negInf => decide +kernel

end Sys2Proof.Machine
end

section
/-! PROOFS. The transform: the ROM and what is read from it, the channels, and the running sum of R175 on silence, on
one sample and on any block of samples (R171 to R177). -/

namespace Sys2Proof.Machine

/-! ### The ROM, the window and the basis (R171 to R173) -/

/-- Every ROM entry is positive and below 1 as a pattern. -/
theorem romAt_pattern_bounds : ∀ j < 128, 0 < (romAt j).toNat ∧ (romAt j).toNat < 0x3F800000 := by
  decide +kernel

theorem romAt_succ_lt : ∀ j < 127, (romAt (j + 1)).toNat < (romAt j).toNat := by
  decide +kernel

/-- The ROM falls from neighbour to neighbour, so it falls throughout. -/
theorem romAt_strictly_falling {i j : Nat} (hij : i < j) (hj : j < 128) : (romAt j).toNat < (romAt i).toNat := by
  induction j, hij using Nat.le_induction with
  | base => exact romAt_succ_lt i (by omega)
  | succ j _ ih => exact (romAt_succ_lt j (by omega)).trans (ih (by omega))

theorem signBit_romAt {j : Nat} (hj : j < 128) : signBit (romAt j) = false := by
  obtain ⟨-, hlt⟩ := romAt_pattern_bounds j hj
  exact Nat.testBit_lt_two_pow (hlt.trans (by norm_num))

theorem signBit_win {n : Nat} (hn : n < 256) : signBit (win n) = false := by
  rw [win]
  split <;> exact signBit_romAt (by omega)

/-- Positions n and 255 - n of the window read one ROM entry. -/
theorem win_symmetric {n : Nat} (hn : n < 256) : win n = win (255 - n) := by
  rw [win, win]
  by_cases hfirst : n < 128
  · rw [if_pos hfirst, if_neg (by omega), show 255 - n - 128 = 127 - n by omega]
  · rw [if_neg hfirst, if_pos (by omega), show 127 - (255 - n) = n - 128 by omega]

/-- Settles O54: each conjunct is one of the facts above or of the bounds that hold of every ROM entry. -/
theorem romWindowAndBasisBounds : Obligations.RomWindowAndBasisBounds := by
  unfold Obligations.RomWindowAndBasisBounds
  refine ⟨rfl, romAt_pattern_bounds, fun i j hij hj => romAt_strictly_falling hij hj, fun n hn => ?window,
    fun k n _ _ => ?basis⟩
  case window =>
    obtain ⟨-, hpositive, hbelow⟩ := win_bounds hn
    exact ⟨win_symmetric hn, signBit_win hn, hpositive, hbelow⟩
  case basis =>
    obtain ⟨hodd, hle⟩ := basIndex_odd k n
    exact ⟨hodd, by omega, hle, bas_bounds k n⟩

/-- The smallest ROM entry is above 2^-8, in both signs. -/
theorem rom_lower_bound : ∀ j < 128, 2 ^ 141 ≤ magnitude (romAt j) ∧ 2 ^ 141 ≤ magnitude (fneg (romAt j)) := by
  decide +kernel

theorem le_magnitude_win {n : Nat} (hn : n < 256) : 2 ^ 141 ≤ magnitude (win n) := by
  rw [win]
  split <;> exact (rom_lower_bound _ (by omega)).1

theorem le_magnitude_bas (k n : Nat) : 2 ^ 141 ≤ magnitude (bas k n) := by
  obtain ⟨-, hle⟩ := basIndex_odd k n
  simp only [bas]
  split
  · exact (rom_lower_bound _ (by omega)).1
  · exact (rom_lower_bound _ (by omega)).2

/-! ### The channels (R176) -/

/-- Settles O49: a channel's window is its tail and its new samples. -/
theorem channelsAreTransformedAlone : Obligations.ChannelsAreTransformedAlone := by
  unfold Obligations.ChannelsAreTransformedAlone
  exact fun _ _ _ _ k hoverlap hblock => coefficient_congr hoverlap hblock k

/-! ### Silence (R177 item 1) -/

/-- Settles O55: the running sum stays at its first value. -/
theorem transformOfSilenceIsZero : Obligations.TransformOfSilenceIsZero := by
  unfold Obligations.TransformOfSilenceIsZero
  exact fun _ hsilent k _ => transform_eq_zero hsilent k

/-! ### The running sum (R175) -/

/-- An invariant of the running sum: it holds of +0.0 before the first product, and each of the 256 additions carries
it on. -/
theorem transform_induction {a : Nat → F32} {k : Nat} (motive : Nat → F32 → Prop) (zero : motive 0 0#32)
    (add : ∀ n acc, n < 256 → motive n acc → motive (n + 1) (fadd acc (fmul (bas k n) (fmul (win n) (a n))))) :
    motive 256 (transform a k) := by
  have hpartial : ∀ n ≤ 256, motive n ((List.range n).foldl (accumulate (bas k) (windowed win a)) 0#32) := by
    intro n hn
    induction n with
    | zero => exact zero
    | succ n ih =>
      rw [List.range_succ, List.foldl_append]
      exact add n _ hn (ih (by omega))
  exact hpartial 256 le_rfl

/-! ### Products of samples (R177 item 2) -/

/-- The product of a finite value with one of magnitude below 1 does not exceed a power of two that bounds the
value. -/
theorem fmul_below_one {c x : F32} (hc : isFinite c = true) (hc1 : magnitude c < 2 ^ 149) (hx : isFinite x = true)
    {q : Nat} (hq : q ≤ 253) (hxq : magnitude x ≤ 2 ^ q) :
    isFinite (fmul c x) = true ∧ magnitude (fmul c x) ≤ 2 ^ q := by
  have hproduct : magnitude c * magnitude x ≤ 1 * 2 ^ q * 2 ^ 149 := by
    rw [one_mul, Nat.mul_comm (2 ^ q)]
    exact Nat.mul_le_mul hc1.le hxq
  rw [fmul_of_finite hc hx]
  simpa only [one_mul] using roundToF32_le_representable _ _ 149 1 q (by norm_num) hq hproduct

theorem magnitude_sample_le (x : BitVec 16) : magnitude (f32OfSample x) ≤ 2 ^ 164 := by
  obtain ⟨-, hmagnitude⟩ := f32OfSample_finite_magnitude x
  have hlow := BitVec.le_toInt x
  have hhigh := BitVec.toInt_lt (x := x)
  rw [hmagnitude]
  omega

/-- R177 item 2: a windowed sample has magnitude at most 32768. -/
theorem windowed_sample_bounds {n : Nat} (hn : n < 256) (x : BitVec 16) :
    isFinite (fmul (win n) (f32OfSample x)) = true ∧ magnitude (fmul (win n) (f32OfSample x)) ≤ 2 ^ 164 := by
  obtain ⟨hwin, -, hwin1⟩ := win_bounds hn
  obtain ⟨hsample, -⟩ := f32OfSample_finite_magnitude x
  exact fmul_below_one hwin hwin1 hsample (by norm_num) (magnitude_sample_le x)

/-- R177 item 2: so has its product with a basis value. -/
theorem product_sample_bounds {n : Nat} (hn : n < 256) (k : Nat) (x : BitVec 16) :
    isFinite (fmul (bas k n) (fmul (win n) (f32OfSample x))) = true ∧
    magnitude (fmul (bas k n) (fmul (win n) (f32OfSample x))) ≤ 2 ^ 164 := by
  obtain ⟨hbas, -, hbas1⟩ := bas_bounds k n
  obtain ⟨hwindowed, hbound⟩ := windowed_sample_bounds hn x
  exact fmul_below_one hbas hbas1 hwindowed (by norm_num) hbound

/-! ### A single sample (R177 item 3) -/

/-- The product of a value of at least 2^q units with one above 2^-8 has at least 2^(q-8) units. -/
theorem le_magnitude_fmul {c x : F32} (hc : isFinite c = true) (hcl : 2 ^ 141 ≤ magnitude c)
    (hx : isFinite x = true) {q : Nat} (hxq : 2 ^ (q + 8) ≤ magnitude x) (hfinite : isFinite (fmul c x) = true) :
    2 ^ q ≤ magnitude (fmul c x) := by
  have hproduct : 2 ^ q * 2 ^ 149 ≤ magnitude c * magnitude x :=
    calc 2 ^ q * 2 ^ 149 = 2 ^ 141 * 2 ^ (q + 8) := by rw [pow_add]; ring
      _ ≤ magnitude c * magnitude x := Nat.mul_le_mul hcl hxq
  rw [fmul_of_finite hc hx] at hfinite ⊢
  simpa using le_magnitude_roundToF32 _ _ 149 1 q (by norm_num) (by simpa using hproduct) hfinite

/-- A sample that is not zero has a product that is not zero: no factor is below 2^-8, so nothing underflows. -/
theorem product_sample_ne_zero {n : Nat} (hn : n < 256) (k : Nat) {x : BitVec 16} (hx : x ≠ 0) :
    magnitude (fmul (bas k n) (fmul (win n) (f32OfSample x))) ≠ 0 := by
  obtain ⟨hsample, hmagnitude⟩ := f32OfSample_finite_magnitude x
  obtain ⟨hwin, -, -⟩ := win_bounds hn
  obtain ⟨hbas, -, -⟩ := bas_bounds k n
  have hsample1 : 2 ^ (141 + 8) ≤ magnitude (f32OfSample x) := by
    have hne : x.toInt ≠ 0 := mt (fun h => BitVec.toInt_inj.mp (h.trans BitVec.toInt_zero.symm)) hx
    rw [hmagnitude]
    omega
  have hwindowed := (windowed_sample_bounds hn x).1
  have hwindowed1 : 2 ^ (133 + 8) ≤ magnitude (fmul (win n) (f32OfSample x)) :=
    le_magnitude_fmul hwin (le_magnitude_win hn) hsample hsample1 hwindowed
  have hproduct1 := le_magnitude_fmul hbas (le_magnitude_bas k n) hwindowed hwindowed1 (product_sample_bounds hn k x).1
  exact (lt_of_lt_of_le (Nat.two_pow_pos 133) hproduct1).ne'

/-- The product of a +0.0 input is a zero. -/
theorem product_zero {n : Nat} (hn : n < 256) (k : Nat) :
    isFinite (fmul (bas k n) (fmul (win n) 0#32)) = true ∧ magnitude (fmul (bas k n) (fmul (win n) 0#32)) = 0 := by
  obtain ⟨hwindowed, hwindowed0⟩ := magnitude_fmul_zero (win_bounds hn).1 (z := 0#32) (by decide) (by decide)
  exact magnitude_fmul_zero (bas_bounds k n).1 hwindowed hwindowed0

/-- Settles O56: the running sum is +0.0 up to the sample, then the sample's product, which the zeros after it leave
alone. -/
theorem singleSampleTransform : Obligations.SingleSampleTransform := by
  unfold Obligations.SingleSampleTransform
  intro a m x hm hx ham hzeros k _
  obtain ⟨hproduct, -⟩ := product_sample_bounds hm k x
  have hproduct0 := product_sample_ne_zero hm k hx
  have hsum := transform_induction (a := a) (k := k)
    (fun n acc => acc = if n ≤ m then 0#32 else fmul (bas k m) (fmul (win m) (f32OfSample x))) rfl ?add
  case add =>
    rintro n acc hn rfl
    rcases lt_trichotomy n m with hbefore | rfl | hafter
    · obtain ⟨hzero, hzero0⟩ := product_zero hn k
      rw [hzeros n hn hbefore.ne, if_pos hbefore.le, if_pos (show n + 1 ≤ m from hbefore)]
      exact fadd_posZero_zero hzero hzero0
    · rw [ham, if_pos le_rfl, if_neg (by omega)]
      exact fadd_zero_left hproduct hproduct0 (by decide) (by decide)
    · obtain ⟨hzero, hzero0⟩ := product_zero hn k
      rw [hzeros n hn hafter.ne', if_neg (by omega), if_neg (by omega)]
      exact fadd_zero_right hproduct hproduct0 hzero hzero0
  rwa [if_neg (by omega)] at hsum

/-! ### Any block of samples (R177 item 2) -/

/-- A sum of finite values is finite and bounded where the magnitudes add up to a representable bound. -/
theorem fadd_bounds {x y : F32} (hx : isFinite x = true) (hy : isFinite y = true) {m q : Nat} (hm : m < 2 ^ 24)
    (hq : q ≤ 253) (hsum : magnitude x + magnitude y ≤ m * 2 ^ q) :
    isFinite (fadd x y) = true ∧ magnitude (fadd x y) ≤ m * 2 ^ q := by
  by_cases hzero : units x + units y = 0
  · rw [fadd_of_sum_eq_zero hx hy hzero, magnitude_withSign_zero]
    exact ⟨isFinite_withSign_zero _, Nat.zero_le _⟩
  · have htriangle := Int.natAbs_add_le (units x) (units y)
    rw [natAbs_units, natAbs_units] at htriangle
    rw [fadd_of_sum_ne_zero hx hy hzero]
    refine roundToF32_le_representable _ _ 0 m q hm hq ?_
    rw [pow_zero, mul_one]
    exact htriangle.trans hsum

/-- After n products the running sum is at most n * 32768: each such bound is a binary32 value, so no rounding passes
it. -/
theorem transform_sample_bounds {a : Nat → F32} (ha : ∀ n, n < 256 → ∃ x : BitVec 16, a n = f32OfSample x) (k : Nat) :
    isFinite (transform a k) = true ∧ magnitude (transform a k) ≤ 256 * 2 ^ 164 := by
  refine transform_induction (a := a) (k := k)
    (fun n acc => isFinite acc = true ∧ magnitude acc ≤ n * 2 ^ 164) (by decide) ?add
  rintro n acc hn ⟨hacc, hbound⟩
  obtain ⟨x, hx⟩ := ha n hn
  obtain ⟨hproduct, hproduct1⟩ := product_sample_bounds hn k x
  rw [hx]
  exact fadd_bounds hacc hproduct (by omega) (by norm_num) (by omega)

/-- Settles O57: the bounds of one windowed sample and of the running sum. -/
theorem coefficientsStayFinite : Obligations.CoefficientsStayFinite := by
  unfold Obligations.CoefficientsStayFinite
  refine fun a ha => ⟨fun n hn => ?windowed, fun k _ => ?coefficient⟩
  case windowed =>
    obtain ⟨x, hx⟩ := ha n hn
    obtain ⟨hfinite, hbound⟩ := windowed_sample_bounds hn x
    rw [hx]
    exact ⟨hfinite, hbound.trans (by norm_num)⟩
  case coefficient =>
    obtain ⟨hfinite, hbound⟩ := transform_sample_bounds ha k
    exact ⟨hfinite, hbound.trans (by norm_num)⟩

end Sys2Proof.Machine
end

section
/-! PROOFS. The frame packer: the fields of the header byte, the bytes of the frame, and the frame of silence (R200 to
R206). -/

namespace Sys2Proof.Machine

/-! ### The header byte (R201, R202) -/

/-- The mask that R202 puts on the channel mode keeps bits 2..0. -/
theorem getLsbD_seven (i : Nat) : (0x7#32).getLsbD i = decide (i < 3) := by
  have h : (0x7#32).getLsbD i = (decide (i < 32) && (2 ^ 3 - 1).testBit i) := BitVec.getLsbD_ofNat ..
  rw [h, Nat.testBit_two_pow_sub_one, ← Bool.decide_and]
  exact decide_eq_decide.mpr (by omega)

/-- The bits of the header byte: from bit 5 on those of sfIdx, below bit 3 those of the channel mode. -/
theorem getLsbD_headerByte (freq chmode : Word) {i : Nat} (hi : i < 8) :
    (headerByte freq chmode).getLsbD i =
      (!decide (i < 5) && (sfIdx freq).getLsbD (i - 5) || decide (i < 3) && chmode.getLsbD i) := by
  simp only [headerByte, BitVec.getLsbD_setWidth, BitVec.getLsbD_or, BitVec.getLsbD_shiftLeft, BitVec.getLsbD_and,
    getLsbD_seven, hi, show i < 32 by omega, show i - 5 < 32 by omega, decide_true, Bool.true_and, Bool.and_comm]

theorem extractLsb'_headerByte_sfIdx (freq chmode : Word) : (headerByte freq chmode).extractLsb' 5 3 = sfIdx freq := by
  apply BitVec.eq_of_getLsbD_eq
  intro i hi
  simp [hi, getLsbD_headerByte freq chmode (show 5 + i < 8 by omega), show ¬ 5 + i < 3 by omega]

theorem extractLsb'_headerByte_reserved (freq chmode : Word) : (headerByte freq chmode).extractLsb' 3 2 = 0#2 := by
  apply BitVec.eq_of_getLsbD_eq
  intro i hi
  simp [hi, getLsbD_headerByte freq chmode (show 3 + i < 8 by omega), show 3 + i < 5 by omega]

theorem extractLsb'_headerByte_chmode (freq chmode : Word) :
    (headerByte freq chmode).extractLsb' 0 3 = chmode.extractLsb' 0 3 := by
  apply BitVec.eq_of_getLsbD_eq
  intro i hi
  simp [hi, getLsbD_headerByte freq chmode (show i < 8 by omega), show i < 5 by omega]

/-- A channel mode that CONFIGURE accepts fits the three bits of its field. -/
theorem toNat_headerByte_chmode (freq : Word) {chmode : Word} (h : chmode.toNat < 3) :
    ((headerByte freq chmode).extractLsb' 0 3).toNat = chmode.toNat := by
  rw [extractLsb'_headerByte_chmode, BitVec.extractLsb'_toNat, Nat.shiftRight_zero, Nat.mod_eq_of_lt (by omega)]

/-- A byte is put together from the three fields that R202 divides it into. -/
theorem toNat_eq_headerFields (b : Byte) :
    b.toNat = 32 * (b.extractLsb' 5 3).toNat + 8 * (b.extractLsb' 3 2).toNat + (b.extractLsb' 0 3).toNat := by
  have hb := b.isLt
  simp only [BitVec.extractLsb'_toNat, Nat.shiftRight_eq_div_pow]
  omega

theorem toNat_headerByte (freq : Word) {chmode : Word} (h : chmode.toNat < 3) :
    (headerByte freq chmode).toNat = 32 * (sfIdx freq).toNat + chmode.toNat := by
  rw [toNat_eq_headerFields, toNat_headerByte_chmode freq h, extractLsb'_headerByte_sfIdx,
    extractLsb'_headerByte_reserved]
  rfl

/-- R201's table: sampling frequency and its index. -/
def sfIdxTable : List (Nat × Nat) := [(44100, 0), (48000, 1), (88200, 2), (96000, 3)]

theorem toNat_sfIdx_of_mem_sfIdxTable : ∀ f ∈ sfIdxTable, (sfIdx (BitVec.ofNat 32 f.1)).toNat = f.2 := by
  decide

/-- Settles O50: the fields of the header byte are sfIdx, which R201's table gives, and a channel mode below 3. -/
theorem headerByteDecodesLosslessly : Obligations.HeaderByteDecodesLosslessly := by
  unfold Obligations.HeaderByteDecodesLosslessly
  intro f hf m hm
  have hsfIdx := toNat_sfIdx_of_mem_sfIdxTable f hf
  have hchmode : (BitVec.ofNat 32 m).toNat = m := Nat.mod_eq_of_lt (by omega)
  have hlt : (BitVec.ofNat 32 m).toNat < 3 := hchmode.symm ▸ hm
  refine ⟨?_, ?_, ?_⟩
  · rw [toNat_headerByte _ hlt, hsfIdx, hchmode]
  · rw [extractLsb'_headerByte_sfIdx, hsfIdx]
  · rw [toNat_headerByte_chmode _ hlt, hchmode]

/-! ### The active configuration by value (R26, R160, R143, R201) -/

theorem payloadBytes_cases {q : Word} (h : q = 0 ∨ q = 1 ∨ q = 2) :
    (q = 0 ∧ payloadBytes lep10 q = 330) ∨ (q = 1 ∧ payloadBytes lep10 q = 220) ∨
      (q = 2 ∧ payloadBytes lep10 q = 110) := by
  rcases h with rfl | rfl | rfl
  · exact .inl ⟨rfl, rfl⟩
  · exact .inr (.inl ⟨rfl, rfl⟩)
  · exact .inr (.inr ⟨rfl, rfl⟩)

theorem nch_mono_or_not (m : Word) : (m = 2 ∧ nch lep10 m = 1) ∨ (m ≠ 2 ∧ nch lep10 m = 2) := by
  by_cases h : m = 2
  · exact .inl ⟨h, nch_of_mono h⟩
  · exact .inr ⟨h, nch_of_not_mono h⟩

theorem sfIdx_cases {f : Word} (h : f = 44100 ∨ f = 48000 ∨ f = 88200 ∨ f = 96000) :
    (f = 44100 ∧ (sfIdx f).toNat = 0) ∨ (f = 48000 ∧ (sfIdx f).toNat = 1) ∨ (f = 88200 ∧ (sfIdx f).toNat = 2) ∨
      (f = 96000 ∧ (sfIdx f).toNat = 3) := by
  have table := toNat_sfIdx_of_mem_sfIdxTable
  rcases h with rfl | rfl | rfl | rfl
  · exact .inl ⟨rfl, table (44100, 0) (by decide)⟩
  · exact .inr (.inl ⟨rfl, table (48000, 1) (by decide)⟩)
  · exact .inr (.inr (.inl ⟨rfl, table (88200, 2) (by decide)⟩))
  · exact .inr (.inr (.inr ⟨rfl, table (96000, 3) (by decide)⟩))

theorem chmode_lt_of_legal {m : Word} (h : m = 0 ∨ m = 1 ∨ m = 2) : m.toNat < 3 := by
  rcases h with rfl | rfl | rfl <;> decide

/-! ### The bytes of the frame (R200 to R205) -/

theorem payloadByte_of_lt (c : Config) (x : Nat → Nat → F32) {n i : Nat} (h : i < 128 * n) :
    payloadByte c x n i = c.quantize (x (i % n) (i / n)) := if_pos h

theorem payloadByte_of_le (c : Config) (x : Nat → Nat → F32) {n i : Nat} (h : 128 * n ≤ i) :
    payloadByte c x n i = c.padByte := if_neg (Nat.not_lt.mpr h)

section AdmittedEncode

variable {s t : State} (hadmits : s.admitsEncode) (h : exec .encode s = .next t)
include hadmits h

theorem frameByte_zero_of_encode : frameByte t 0 = syncByte := by
  rw [frameByte_of_encode hadmits h (by omega)]
  rfl

theorem frameByte_one_of_encode : frameByte t 1 = headerByte s.actSfreq s.actChmode := by
  rw [frameByte_of_encode hadmits h (by omega)]
  rfl

theorem frameByte_two_of_encode : frameByte t 2 = lengthByte (payloadBytes lep10 s.actQuality) := by
  rw [frameByte_of_encode hadmits h (by omega)]
  rfl

theorem frameByte_payload_of_encode {i : Nat} (hi : i < payloadBytes lep10 s.actQuality) :
    frameByte t (3 + i) =
      payloadByte lep10 (coefficient lep10 s (nch lep10 s.actChmode)) (nch lep10 s.actChmode) i := by
  rw [frameByte_of_encode hadmits h (by omega), encodeFrame_payload s hi]

theorem toNat_frameLen_of_encode : t.frameLen.toNat = 3 + payloadBytes lep10 s.actQuality := by
  have hp := payloadBytes_le lep10 s.actQuality
  rw [eq_of_encode_admitted hadmits h, commandDone_frameLen, encodeCommit_frameLen, BitVec.toNat_ofNat,
    Nat.mod_eq_of_lt (by omega)]

/-- No byte outside the frame is written (R205). -/
theorem byteAt_outside_frame_of_encode {a : Nat}
    (ha : a < frameBase ∨ frameBase + (3 + payloadBytes lep10 s.actQuality) ≤ a) : byteAt t a = byteAt s a := by
  rw [eq_of_encode_admitted hadmits h, byteAt_encodeCommit, if_neg (by omega)]

end AdmittedEncode

/-- Settles O42: p, n and k are R160's, R143's and R201's values of the legal configuration, and the frame's bytes are
those of `encodeFrame` one by one. -/
theorem encodeWritesTheFrame : Obligations.EncodeWritesTheFrame := by
  unfold Obligations.EncodeWritesTheFrame
  rintro s t hadmits ⟨hquality, hchmode, -, hsfreq⟩ h
  have hp := payloadBytes_cases hquality
  have hlt := chmode_lt_of_legal hchmode
  have hheader := frameByte_one_of_encode hadmits h
  refine ⟨payloadBytes lep10 s.actQuality, nch lep10 s.actChmode, (sfIdx s.actSfreq).toNat, hp,
    nch_mono_or_not s.actChmode, sfIdx_cases hsfreq, frameByte_zero_of_encode hadmits h, ?header, ?length,
    fun i hi hcoefficient => ?coefficients, fun i hi hpad => ?pad, ?sfIdxField, ?reservedField, ?chmodeField,
    toNat_frameLen_of_encode hadmits h, by omega, by decide, fun a => byteAt_outside_frame_of_encode hadmits h⟩
  case header => rw [hheader, toNat_headerByte _ hlt]
  case length => rw [frameByte_two_of_encode hadmits h, lengthByte, BitVec.toNat_ofNat]
  case coefficients =>
    rw [frameByte_payload_of_encode hadmits h hi, payloadByte_of_lt _ _ hcoefficient, lep10_quantize]
  case pad => rw [frameByte_payload_of_encode hadmits h hi, payloadByte_of_le _ _ hpad, lep10_padByte]
  case sfIdxField => rw [hheader, extractLsb'_headerByte_sfIdx]
  case reservedField => rw [hheader, extractLsb'_headerByte_reserved]
  case chmodeField => rw [hheader, toNat_headerByte_chmode _ hlt]

/-! ### The frame of silence (R206) -/

/-- Q(+0.0) is 0x80 (R178). -/
theorem quantize_zero : quantize 0#32 = 0x80#8 := by decide

theorem eq_silence_of_forall {v : Vector F32 128} (h : ∀ j : Fin 128, v[j] = 0#32) : v = silence :=
  Vector.ext fun j hj => by rw [← Fin.getElem_fin v ⟨j, hj⟩, h ⟨j, hj⟩, silence, Vector.getElem_replicate]

/-- The tails of the active channels are silent where OVL[0] is and, with two channels, OVL[1]. -/
theorem overlap_eq_silence_of_active {s : State} (h0 : ∀ j : Fin 128, s.ovl0[j] = 0#32)
    (h1 : s.actChmode ≠ 2 → ∀ j : Fin 128, s.ovl1[j] = 0#32) {c : Nat} (hc : c < nch lep10 s.actChmode) :
    overlap s c = silence := by
  rcases Nat.eq_zero_or_pos c with rfl | hpos
  · rw [overlap, if_pos rfl, eq_silence_of_forall h0]
  · have hstereo : s.actChmode ≠ 2 := fun hmono => by
      rw [nch_of_mono hmono] at hc
      omega
    rw [overlap, if_neg (by omega), eq_silence_of_forall (h1 hstereo)]

/-- A payload of +0.0 coefficients of the active channels: 0x80, then pad bytes. -/
theorem payloadByte_of_silence {x : Nat → Nat → F32} {n : Nat} (hx : ∀ c, c < n → ∀ k, x c k = 0#32) (i : Nat) :
    payloadByte lep10 x n i = if i < 128 * n then 0x80#8 else 0x00#8 := by
  by_cases hi : i < 128 * n
  · rw [if_pos hi, payloadByte_of_lt _ _ hi, hx _ (Nat.mod_lt i (by omega)), lep10_quantize, quantize_zero]
  · rw [if_neg hi, payloadByte_of_le _ _ (Nat.not_lt.mp hi), lep10_padByte]

/-- Settles O44: a silent block after silent tails has +0.0 coefficients in every active channel. -/
theorem silentBlockGivesTheSilentFrame : Obligations.SilentBlockGivesTheSilentFrame := by
  unfold Obligations.SilentBlockGivesTheSilentFrame
  intro s t hadmits hsilent hovl0 hovl1 h
  refine ⟨frameByte_zero_of_encode hadmits h, frameByte_one_of_encode hadmits h, frameByte_two_of_encode hadmits h,
    fun i hi => ?payload⟩
  rw [frameByte_payload_of_encode hadmits h hi]
  exact payloadByte_of_silence (fun c hc => coefficient_eq_zero (overlap_eq_silence_of_active hovl0 hovl1 hc)
    fun j hj => pcmSample_of_blockSilent hsilent hc hj) i

end Sys2Proof.Machine
end

section
/-! PROOFS. What every step and every instruction guarantee whatever the state: the commands' ownership of LAST_ERROR,
totality, and the isolation of the blocks of a system (60_exceptions.md). -/

namespace Sys2Proof.Machine

/-! ### LAST_ERROR (R24, R223, R226) -/

/-- A command leaves LAST_ERROR None, Fatal or IllegalParameter: it is done or raises one of the two errors. -/
theorem exec_command_lastError {i : Instr} {s t : State} (hi : isCommand i = true) (h : exec i s = .next t) :
    t.lastError = .none ∨ t.lastError = .fatal ∨ t.lastError = .illegalParameter := by
  rcases exec_command_cases hi s with ⟨code, hcode, hraised⟩ | ⟨u, hdone⟩
  · obtain rfl := Host.Outcome.next.inj (hraised.symm.trans h)
    rw [raiseError_lastError]
    exact .inr hcode
  · obtain rfl := Host.Outcome.next.inj (hdone.symm.trans h)
    exact .inl (commandDone_lastError u)

/-- Settles O36: what is no command keeps both flags, and a command ends with one of the three codes. -/
theorem lastErrorIsWrittenByCommandsOnly : Obligations.LastErrorIsWrittenByCommandsOnly := by
  unfold Obligations.LastErrorIsWrittenByCommandsOnly
  intro i s t h
  refine ⟨fun hi => ?notCommand, fun hi => exec_command_lastError hi h⟩
  case notCommand =>
    obtain ⟨-, hlastError⟩ := exec_not_command_flags hi h
    exact hlastError

/-! ### Totality (R238) -/

/-- Settles O14, by the host's next action: a request is answered because every instruction is, by `exec_next`. -/
theorem stepAlwaysAnswersNext : Obligations.StepAlwaysAnswersNext := by
  unfold Obligations.StepAlwaysAnswersNext
  intro s
  match hinputs : s.inputs with
  | [] => exact ⟨_, step_idle hinputs⟩
  | .reset cut :: rest => exact ⟨_, step_reset hinputs⟩
  | .request r :: rest =>
    rw [step_request hinputs]
    exact exec_next _ _

/-! ### A system of several blocks (R235) -/

/-- A system's step at index k is a step of the block there, whose next state replaces the old one. -/
theorem stepInstance_eq_next_iff {n : Nat} [NeZero n] {sys sys' : System n} {k : Fin n} :
    sys.stepInstance k = .next sys' ↔ ∃ t, step sys[k] = .next t ∧ sys.set k t = sys' := by
  rw [System.stepInstance]
  cases step sys[k] <;> simp

/-- Settles O59: the stepped block is read back from where it was put, and no other index was written. -/
theorem instancesAreIsolated : Obligations.InstancesAreIsolated := by
  unfold Obligations.InstancesAreIsolated
  intro n _ sys sys' k h
  obtain ⟨t, hstep, rfl⟩ := stepInstance_eq_next_iff.mp h
  refine ⟨?own, fun j hj => ?other⟩
  case own => rw [hstep, Fin.getElem_fin, Vector.getElem_set_self]
  case other => exact Vector.getElem_set_ne k.isLt j.isLt fun hkj => hj (Fin.ext hkj.symm)

end Sys2Proof.Machine
end
